-- ==== Sys2Proof/Word.lean ====
section
/-! DEFINITION. The word types of the NCH-3124: the byte of the line and of the host port, the 3-bit sequence number
and the 16-bit CRC register. Counts, station numbers and instants are plain natural numbers. -/

namespace Sys2Proof

/-- A data byte of a character (R5) or of the host port (R154). -/
abbrev Byte := BitVec 8

/-- A sequence number: 3 bits, arithmetic modulo 8 (00_scope.md, Conventions). -/
abbrev Seq := BitVec 3

/-- The CRC register of R20. -/
abbrev Crc := BitVec 16

/-- A byte read as a number, 0 to 255. -/
abbrev byteVal (b : Byte) : Nat := b.toNat

end Sys2Proof
end

