-- ==== Sys2Proof/Config.lean ====
section
/-! DEFINITION. The figures the manual fixes for every NCH-3124. All times are in sixteenths of T, one sample of the
sample clock (section 1.2). The model has no value that an implementation may choose: the straps are state. -/

namespace Sys2Proof.Config

/-- One bit time T: sixteen samples (section 1.2). -/
abbrev bitTime : Nat := 16

/-- One character, 11 T (R5). -/
abbrev charTime : Nat := 176

/-- The mid-bit of cell n is sample 16n + 9 (R6, R12). -/
abbrev midBit (cell : Nat) : Nat := 16 * cell + 9

/-- The stop cell, cell 10, begins (R5). -/
abbrev stopStart : Nat := 160

/-- The mid-bit of the start cell (R7). -/
abbrev startMid : Nat := 9

/-- The mid-bit of the stop cell, sample 169, that is 10 9/16 T (R8). -/
abbrev stopMid : Nat := 169

/-- The settle gap of 4 T (R28, R52, R90). -/
abbrev settleGap : Nat := 64

/-- The 2 T past the due instant that R25 allows. -/
abbrev truncationGrace : Nat := 32

/-- One slot, 24 T (R39). -/
abbrev slotTime : Nat := 384

/-- The answer window begins 4 T after the frame end (R44, R86, R93). -/
abbrev windowOpen : Nat := 64

/-- The answer window ends 28 T after the frame end (R44, R93). -/
abbrev windowClose : Nat := 448

/-- An answer in time starts no earlier than 3 T after the emitted instant (R94). -/
abbrev inTimeFrom : Nat := 48

/-- An answer in time starts no later than 12 T after the emitted instant (R94). -/
abbrev inTimeTo : Nat := 192

/-- The 48 T of quiet that both rest slots give (R40). -/
abbrev restQuiet : Nat := 768

/-- Q of R41: 4 + 24(H+3) T. -/
def quietMeasure (h : Nat) : Nat := 64 + 384 * (h + 3)

/-- The quiet timer holds at 65535 sixteenths (R10). -/
abbrev quietMax : Nat := 65535

/-- The damaged, loss and rest counts stop at 65535 (R63). -/
abbrev countMax : Nat := 65535

/-- The cast-loss tally stops at 255 (R144). -/
abbrev tallyMax : Nat := 255

/-- The shared budget of 16 places (R107). -/
abbrev budget : Nat := 16

/-- The receive queue holds at most 24 records (R141). -/
abbrev receiveDepth : Nat := 24

/-- The message pool has 64 blocks of 16 bytes (R129). -/
abbrev poolBlocks : Nat := 64

/-- Bytes in one block of the pool (R129). -/
abbrev blockBytes : Nat := 16

/-- The receive reserve that a POST must leave (R131). -/
abbrev receiveReserve : Nat := 8

/-- The fault count at which the station withdraws (R57). -/
abbrev faultLimit : Nat := 8

/-- The attempts at which an entry is given up (R101, R102). -/
abbrev attemptLimit : Nat := 4

/-- The BUSY answers at which an entry is refused (R100). -/
abbrev busyLimit : Nat := 16

/-- The destination that marks a CAST (R19). -/
abbrev castDest : Nat := 31

/-- The largest message, 120 bytes (R19). -/
abbrev maxLength : Nat := 120

/-- The bit rate in bits per second that a rate code selects (R4). -/
def bitRate (code : Nat) : Nat := 125000 * 2 ^ code

/-- Crystal cycles of the 16 MHz crystal in one sample, by rate code (R4). -/
def cyclesPerSample (code : Nat) : Nat := 8 / 2 ^ code

/-- Blocks that a message of `len` bytes needs: `len` divided by 16, rounded up (R130). -/
def blocksFor (len : Nat) : Nat := (len + 15) / 16

end Sys2Proof.Config
end

