-- ==== Sys2Proof/Syntax.lean ====
section
/-! DEFINITION. The commands of the NCH-3124: one constructor of `Instr` for each row of spec/opcode_table.json, with
the operands that the row's rules give it. A command is an event on a pin, a step of the line interface, an instant of
the device's own timing, or a step of a host transaction; spec/95_what_each_step_holds.md lists what each step holds.

A command whose instant the outside decides carries `dt`, the samples that pass before it (0: at the same instant as
the command before it, taken after it). A command whose instant the manual fixes from the state (a mid-bit, a slot start,
a window end, a quiet threshold) carries none: the clock runs on to that instant (assumption log 1). -/

namespace Sys2Proof

/-- A level on the pair: dominant is driven, logic 0; recessive is released, logic 1 (00_scope.md, Conventions). -/
inductive Level where
  | dominant
  | recessive
  deriving DecidableEq, Repr

/-- The three samples around a mid-bit from which a bit is taken or compared (R6, R12). -/
structure Tap where
  a : Level
  b : Level
  c : Level
  deriving DecidableEq, Repr

/-- Which of the blocks takes the end of a held DATA or CAST frame first, where the manual lets either be first:
the rotation controller before the closing answer watch, and the offer (answer unit as addressee, receive path) before
the closing answer watch (R61, R96, R136). -/
structure EndOrder where
  rotationFirst : Bool
  offerFirst : Bool
  deriving DecidableEq, Repr

/-- A step of byte 0 of an OPEN host transaction: a rising edge of SCK with MOSI sampled at the given bit, a falling edge
of SCK, or all eight of them from a byte boundary, the host sending `b` (R154, R156; assumption log 8). -/
inductive FirstByteStep where
  | rise (mosi : Bool)
  | fall
  | byte (b : Byte)
  deriving DecidableEq, Repr

/-- A step of an OPEN host transaction after its command byte: an edge of SCK or a whole byte as in byte 0, or `close`,
CSn rises (R154, R157, R158; assumption log 8). -/
inductive HostPhase where
  | rise (mosi : Bool)
  | fall
  | byte (b : Byte)
  | close
  deriving DecidableEq, Repr

/-- The command that byte 0 of a host transaction selects: the rows of the command table of section 9.3, and UNKNOWN
for every other byte (R156). -/
inductive HostCommand where
  | nop
  | post
  | take
  | reap
  | status
  | peer
  | cancel
  | flush
  | leave
  | rejoin
  | restart
  | unknown
  deriving DecidableEq, Repr

/-- The commands: the rows of spec/opcode_table.json, in the table's order. -/
inductive Instr where
  /-- PIN_RESET (R3): RSTn falls. -/
  | pinReset (dt : Nat)
  /-- RSTN_RELEASE (R2): RSTn rises with these levels on the strap pins and on CSn. -/
  | rstnRelease (dt : Nat) (sn hn : BitVec 5) (rate : BitVec 2) (csnLow : Bool)
  /-- CHARACTER_DELIVERED (R8), with the two choices of `EndOrder`. -/
  | characterDelivered (rotationFirst offerFirst : Bool)
  /-- START_GLITCH (R7): whether the rotation controller takes the glitch before the answer watch, where both waited for it
  (R47, R95; assumption log 6). -/
  | startGlitch (rotationFirst : Bool)
  /-- DISCARD_SETTLE (R28). -/
  | discardSettle
  /-- FRAME_TRUNCATION (R25). -/
  | frameTruncation
  /-- CHARACTER_SENT (R12): the driver's samples of the stop cell. -/
  | characterSent (tap : Tap)
  /-- LOSS (R13): the cell compared and the driver's samples of it. -/
  | loss (cell : Fin 11) (tap : Tap)
  /-- LINE_FAULT (R14): the cell compared and the driver's samples of it. -/
  | lineFault (cell : Fin 11) (tap : Tap)
  /-- FINISHING_END (R16): at the end of the stop cell (`none`), or at a mismatch in the given cell. -/
  | finishingEnd (mismatch : Option (Fin 11 × Tap))
  /-- SLOT_START (R39). -/
  | slotStart
  /-- SECOND_REST_SLOT_END (R40). -/
  | secondRestSlotEnd
  /-- REST_DUE_REST (R40). -/
  | restDueRest
  /-- QUIET_MEASUREMENT_REST (R41). -/
  | quietMeasurementRest
  /-- ROTATION_WINDOW_END (R47). -/
  | rotationWindowEnd
  /-- ANSWER_WINDOW_START (R90). -/
  | answerWindowStart
  /-- WATCH_WINDOW_END (R95). -/
  | watchWindowEnd
  /-- TRANSACTION_OPEN (R155): CSn falls. -/
  | transactionOpen (dt : Nat)
  /-- COMMAND_DECODE (R156): byte 0 is received, and decoded when it is whole. -/
  | commandDecode (dt : Nat) (step : FirstByteStep)
  /-- POST_PAYLOAD_BYTE (R164): a payload byte of a POST has been received whole. -/
  | postPayloadByte (dt : Nat) (b : Byte)
  /-- VOID_TRANSACTION (R159): CSn rises before byte 0 is whole. -/
  | voidTransaction (dt : Nat)
  /-- BARRED_CSN_RISE (R159). -/
  | barredCsnRise (dt : Nat)
  /-- NOP (R163). -/
  | nop (dt : Nat) (phase : HostPhase)
  /-- POST (R165). -/
  | post (dt : Nat) (phase : HostPhase)
  /-- TAKE (R166). -/
  | take (dt : Nat) (phase : HostPhase)
  /-- REAP (R167). -/
  | reap (dt : Nat) (phase : HostPhase)
  /-- STATUS (R168). -/
  | status (dt : Nat) (phase : HostPhase)
  /-- PEER (R170). -/
  | peer (dt : Nat) (phase : HostPhase)
  /-- CANCEL (R171). -/
  | cancel (dt : Nat) (phase : HostPhase)
  /-- FLUSH (R125). -/
  | flush (dt : Nat) (phase : HostPhase)
  /-- LEAVE (R172). -/
  | leave (dt : Nat) (phase : HostPhase)
  /-- REJOIN (R173). -/
  | rejoin (dt : Nat) (phase : HostPhase)
  /-- RESTART (R174). -/
  | restart (dt : Nat) (phase : HostPhase)
  /-- UNKNOWN_COMMAND (R158). -/
  | unknownCommand (dt : Nat) (phase : HostPhase)
  /-- START_EDGE (R7): a sample read dominant just after a sample read recessive. -/
  | startEdge (dt : Nat)
  /-- FIRST_RECESSIVE_SAMPLE (R9). -/
  | firstRecessiveSample (dt : Nat)
  /-- DOMINANT_SAMPLE (R10). -/
  | dominantSample (dt : Nat)
  deriving DecidableEq, Repr

end Sys2Proof
end

