-- ==== Sys2Proof/Decode.lean ====
section
/-! DEFINITION. Decoding. The rows of spec/opcode_table.json give no bits (every row's field list is empty), so no word
spells a command; the one encoding the manual gives, byte 0 of a host transaction (section 9.3), is decoded here. -/

namespace Sys2Proof

/-- The command a word spells by the table's bits: none, because no row of the table gives bits. -/
def decodeTableWord (_nbits _w : Nat) : Option Instr := none

/-- The command that byte 0 selects, UNKNOWN for every byte outside the command table (R156, R162). -/
def commandOfByte (b : Byte) : HostCommand :=
  match b.toNat with
  | 0x00 => .nop
  | 0x10 => .post
  | 0x20 => .take
  | 0x30 => .reap
  | 0x40 => .status
  | 0x41 => .peer
  | 0x50 => .cancel
  | 0x51 => .flush
  | 0x60 => .leave
  | 0x61 => .rejoin
  | 0x7E => .restart
  | _ => .unknown

end Sys2Proof
end

