-- ==== Sys2Proof/Machine/State.lean ====
section
/-! DEFINITION. The state of the NCH-3124: one structure for each block of the block diagram (00_scope.md), the pins
RSTn and the sample clock, and the queue of commands that wait. Plain data throughout. -/

namespace Sys2Proof.Machine

/-- No command of this block faults: the manual gives every command its effect, and a command reported where the
device cannot take it changes nothing (assumption log 2). Nothing raises a value of this type, which is safe. -/
inductive Fault where
  deriving DecidableEq, Repr

/-- The reasons a command is refused. -/
inductive Refusal where
  /-- A command that has no meaning yet, by its row's mnemonic; raised by no command of this model, which is safe. -/
  | notModelled (mnemonic : String)
  deriving DecidableEq, Repr

/-- The strap latch (R1): the sampled numbers and the validity decided by R2. -/
structure StrapLatch where
  own : Nat
  highest : Nat
  rate : Nat
  valid : Bool
  deriving DecidableEq, Repr

/-- The quiet timer (R10). `since` is the model's own: the instant of the first sample that it counts, the one after the last
dominant sample, or the one at a reset. -/
structure QuietTimer where
  elapsed : Nat
  lastDominant : Nat
  since : Nat
  deriving DecidableEq, Repr

/-- The receiver's condition (section 1.4). -/
inductive RxCond where
  | hunting
  | receiving
  | blocked
  deriving DecidableEq, Repr

/-- The receiver (section 1.4): its condition, whether it still awaits one recessive sample after a reset (R17), and the
character shift state: the start instant, the driven indication, and in `lows` the sample numbers of the character that
were read dominant, from which the bits taken so far follow (R6, `Receiver.bitsTaken`; assumption log 7). -/
structure Receiver where
  cond : RxCond
  awaitRecessive : Bool
  startInstant : Nat
  driven : Bool
  lows : List Nat
  deriving DecidableEq, Repr

/-- A character as given to the driver: data byte and edge bit (R5). -/
structure LineChar where
  data : Byte
  edge : Bool
  deriving DecidableEq, Repr

/-- The driver's condition (section 1.6). -/
inductive DriverCond where
  | idle
  | driving
  | finishing
  deriving DecidableEq, Repr

/-- The driver (section 1.6): the character being driven, the instant its start cell began (which gives the cell and
the sample within it), whether its stop cell has been compared and reported, and the character presented next. -/
structure Driver where
  cond : DriverCond
  char : LineChar
  charStart : Nat
  sent : Bool
  next : Option LineChar
  deriving DecidableEq, Repr

/-- The assembler's state (section 2.3). -/
inductive AsmCond where
  | idle
  | inFrame
  | discarding
  deriving DecidableEq, Repr

/-- The frame assembler (section 2.3). -/
structure Assembler where
  cond : AsmCond
  buffer : List Byte
  count : Nat
  expected : Option Nat
  crc : Crc
  startInstant : Nat
  dueInstant : Nat
  ownSoFar : Bool
  deriving DecidableEq, Repr

/-- The kinds of frame (R19). -/
inductive FrameKind where
  | data
  | cast
  | answer
  deriving DecidableEq, Repr

/-- The answer codes (section 2.1, note 4). -/
inductive AnswerCode where
  | taken
  | takenAgain
  | busy
  | outOfStep
  deriving DecidableEq, Repr

/-- The emitter's condition (section 2.7). -/
inductive EmCond where
  | idle
  | emitting
  | finishing
  deriving DecidableEq, Repr

/-- The frame source (section 2.7): none, a transmit entry by its reference and with its class, or the answer unit. -/
inductive FrameSource where
  | none
  | transmit (entry : Nat) (kind : FrameKind)
  | answer
  deriving DecidableEq, Repr

/-- The frame emitter (section 2.7). `frameStart` is the instant at which it presented char 0. -/
structure Emitter where
  cond : EmCond
  source : FrameSource
  header : List Byte
  blocks : List Nat
  length : Nat
  index : Nat
  count : Nat
  crc : Crc
  frameStart : Nat
  deriving DecidableEq, Repr

/-- The station states (section 3.1). -/
inductive StationState where
  | strapFault
  | listen
  | active
  | withdrawn
  deriving DecidableEq, Repr

/-- The withdraw causes (section 3.1). -/
inductive WithdrawCause where
  | faults
  | request
  deriving DecidableEq, Repr

/-- The positions in the rotation (section 3.1). -/
inductive Position where
  | unplaced
  | window
  | slot
  | restDue
  | frame
  deriving DecidableEq, Repr

/-- The rotation controller (section 3.1). `tracked` is the frame end E of the DATA whose window is followed.
`nextSlot` is the model's own: slot starts below it have been taken in the present rotation. -/
structure Rotation where
  station : StationState
  cause : WithdrawCause
  anchored : Bool
  base : Nat
  baseTime : Nat
  position : Position
  slotIndex : Nat
  nextSlot : Nat
  tracked : Option Nat
  marker : Bool
  listenEntry : Nat
  faultCount : Nat
  ownFrame : Bool
  answerWatch : Bool
  answer : Bool
  leaving : Bool
  damaged : Nat
  losses : Nat
  rests : Nat
  changeFlag : Bool
  setSinceSnapshot : Bool
  deriving DecidableEq, Repr

/-- The outcomes of a concluded transmit entry (R117). -/
inductive TxOutcome where
  | delivered
  | sent
  | noAnswer
  | refused
  | cancelled
  | cancelledAfterAttempt
  deriving DecidableEq, Repr

/-- A peer entry (section 4.1). `outstanding` is the reference of a transmit entry; `lastOutcome` none is NONE, and
`rxExpect` none is UNKNOWN. -/
structure PeerEntry where
  txSeq : Seq
  refreshDue : Bool
  outstanding : Option Nat
  lastOutcome : Option TxOutcome
  rxExpect : Option Seq
  rxLastFresh : Bool
  deriving DecidableEq, Repr

/-- Conditions of a pending answer other than NONE (section 5.1). -/
inductive PendingPhase where
  | due
  | emitting
  deriving DecidableEq, Repr

/-- The pending-answer record of the answer unit (section 5.1); the condition NONE is its absence. -/
structure PendingAnswer where
  phase : PendingPhase
  sender : Nat
  seq : Seq
  code : AnswerCode
  windowStart : Nat
  deriving DecidableEq, Repr

/-- The watched entry, its destination and the seq sent (section 5.1). -/
structure Watched where
  entry : Nat
  dest : Nat
  seq : Seq
  deriving DecidableEq, Repr

/-- The held frame of the answer watch (section 5.1). -/
structure HeldFrame where
  start : Nat
  kind : FrameKind
  inTime : Bool
  deriving DecidableEq, Repr

/-- The answer watch with what each condition holds: SHUT, NOTED, OPEN and HOLDING (section 5.1). -/
inductive Watch where
  | shut
  | noted (w : Watched)
  | opened (w : Watched) (emitted : Nat)
  | holding (w : Watched) (emitted : Nat) (held : HeldFrame)
  deriving DecidableEq, Repr

/-- The states of a transmit entry (section 6.1). -/
inductive TxState where
  | waiting
  | inFlight
  | outstanding
  deriving DecidableEq, Repr

/-- A transmit entry (section 6.1). `ref` is the model's own name for it, by which blocks, the peer table, the emitter
and the answer watch refer to it. -/
structure TxEntry where
  ref : Nat
  tag : Byte
  dest : Nat
  length : Nat
  blocks : List Nat
  state : TxState
  returnState : TxState
  attempts : Nat
  busyAnswers : Nat
  attemptedEver : Bool
  cancelPending : Bool
  deriving DecidableEq, Repr

/-- A completion record (R117). -/
structure CompletionRecord where
  tag : Byte
  dest : Nat
  outcome : TxOutcome
  attempts : Nat
  busyAnswers : Nat
  deriving DecidableEq, Repr

/-- The holder of a block (section 7.1), naming a transmit entry or a receive record by its reference. -/
inductive Holder where
  | free
  | transmit (ref : Nat)
  | receive (ref : Nat)
  deriving DecidableEq, Repr

/-- The message pool (section 7.1): the holder of each block, block 0 first, and the block contents as cells, byte j of
block b at address 16b + j. -/
structure Pool where
  holders : List Holder
  cells : List Host.Cell
  deriving DecidableEq, Repr

/-- The class of a receive record with the fields that only a DATA record has (section 8.1). -/
inductive RecordClass where
  | data (seq : Seq) (linkNew : Bool)
  | cast
  deriving DecidableEq, Repr

/-- A receive record (section 8.1). `ref` is the model's own name for it. -/
structure ReceiveRecord where
  ref : Nat
  source : Nat
  cls : RecordClass
  castsLost : Nat
  length : Nat
  blocks : List Nat
  deriving DecidableEq, Repr

/-- The receive queue and its cast-loss tally (chapter 8). -/
structure ReceiveQueue where
  records : List ReceiveRecord
  tally : Nat
  deriving DecidableEq, Repr

/-- The result codes of section 9.3. -/
inductive Result where
  | ok
  | deferred
  | full
  | noRoom
  | invalid
  | incomplete
  | unknownCommand
  | notFound
  | empty
  | wrongState
  deriving DecidableEq, Repr

/-- The transaction states (chapter 9). -/
inductive PortState where
  | idle
  | opened
  | barred
  deriving DecidableEq, Repr

/-- The peer snapshot of R82. -/
structure PeerSnapshot where
  station : Nat
  txSeq : Seq
  refreshDue : Bool
  present : Bool
  tag : Byte
  position : Nat
  rxExpect : Option Seq
  rxLastFresh : Bool
  lastOutcome : Option TxOutcome
  deriving DecidableEq, Repr

/-- The opening readings of R155: the summary byte, the last-result byte, the head receive record and the head
completion record if there is one, and the sixteen bytes of the STATUS snapshot. -/
structure OpeningReadings where
  summary : Byte
  lastResult : Byte
  receiveHead : Option ReceiveRecord
  completionHead : Option CompletionRecord
  status : List Byte
  deriving DecidableEq, Repr

/-- The host port (chapter 9). `bitsIn` holds the bits of the present byte sampled from MOSI, first bit first: its length
is the bit count; `sckHigh` is the level of SCK, low at rest. `returned` holds the bytes clocked out whole in the
transaction, byte 0 first: its length is the byte index and the number of bytes clocked out (R154). -/
structure Port where
  state : PortState
  bitsIn : List Bool
  sckHigh : Bool
  command : Option HostCommand
  params : List Byte
  staging : List Byte
  returned : List Byte
  opening : Option OpeningReadings
  peerSnapshot : Option PeerSnapshot
  lastResult : Result
  deriving DecidableEq, Repr

/-- The whole device. `now` is the sample clock, `rstLow` the level of RSTn, `nextRef` the model's own supply of
references for entries and records, and `pending` the commands that wait, first in, first out. -/
structure State where
  now : Nat
  rstLow : Bool
  straps : StrapLatch
  quiet : QuietTimer
  rx : Receiver
  driver : Driver
  asm : Assembler
  em : Emitter
  rot : Rotation
  peers : List PeerEntry
  pend : Option PendingAnswer
  watch : Watch
  txq : List TxEntry
  compq : List CompletionRecord
  pool : Pool
  rxq : ReceiveQueue
  port : Port
  nextRef : Nat
  pending : List Instr
  deriving DecidableEq, Repr

/-- The receiver after a reset: HUNTING, awaiting one recessive sample, shift state empty (R17). -/
def Receiver.init : Receiver :=
  { cond := .hunting, awaitRecessive := true, startInstant := 0, driven := false, lows := [] }

/-- The driver in IDLE, LTX released, no driven level (R17). -/
def Driver.init : Driver :=
  { cond := .idle, char := { data := 0, edge := false }, charStart := 0, sent := false, next := none }

/-- The assembler after a reset (R21). -/
def Assembler.init : Assembler :=
  { cond := .discarding, buffer := [], count := 0, expected := none, crc := 0xFFFF, startInstant := 0,
    dueInstant := 0, ownSoFar := true }

/-- The emitter in IDLE after a reset (R37). -/
def Emitter.init : Emitter :=
  { cond := .idle, source := .none, header := [], blocks := [], length := 0, index := 0, count := 0, crc := 0xFFFF,
    frameStart := 0 }

/-- The rotation controller after a pin reset with valid straps (R65), its LISTEN entry at instant `t`. -/
def Rotation.init (t : Nat) : Rotation :=
  { station := .listen, cause := .request, anchored := false, base := 0, baseTime := 0, position := .unplaced,
    slotIndex := 0, nextSlot := 0, tracked := none, marker := false, listenEntry := t, faultCount := 0,
    ownFrame := false, answerWatch := false, answer := false, leaving := false, damaged := 0, losses := 0, rests := 0,
    changeFlag := false, setSinceSnapshot := false }

/-- A peer entry after a reset (R67). -/
def PeerEntry.init : PeerEntry :=
  { txSeq := 0, refreshDue := true, outstanding := none, lastOutcome := none, rxExpect := none, rxLastFresh := false }

/-- The host port after a reset, in IDLE (R178). -/
def Port.init : Port :=
  { state := .idle, bitsIn := [], sckHigh := false, command := none, params := [], staging := [], returned := []
    opening := none, peerSnapshot := none, lastResult := .ok }

/-- The device while RSTn is held low by the first reset: every block at its pin-reset values (R3, R17, R21, R37, R65,
R67, R84, R128, R139, R153, R178), the clock at 0, the latch not yet sampled, no command waiting. -/
def State.reset : State :=
  { now := 0, rstLow := true,
    straps := { own := 0, highest := 0, rate := 0, valid := false },
    quiet := { elapsed := 0, lastDominant := 0, since := 0 },
    rx := Receiver.init, driver := Driver.init, asm := Assembler.init, em := Emitter.init, rot := Rotation.init 0,
    peers := List.replicate 31 PeerEntry.init, pend := none, watch := .shut, txq := [], compq := [],
    pool := { holders := List.replicate 64 .free, cells := [] },
    rxq := { records := [], tally := 0 }, port := Port.init, nextRef := 0, pending := [] }

end Sys2Proof.Machine
end

