-- ==== Sys2Proof/Machine/Operands.lean ====
section
/-! DEFINITION. The operand forms: bits taken from samples, the cells of a character, the fields of a frame and its
CRC, and the character an emitter presents at a given index. -/

namespace Sys2Proof.Machine

open Sys2Proof

/-- The majority of the three samples around a mid-bit (R6, R12). -/
def majority (t : Tap) : Level :=
  match t.a, t.b, t.c with
  | .dominant, .dominant, _ => .dominant
  | .dominant, _, .dominant => .dominant
  | _, .dominant, .dominant => .dominant
  | _, _, _ => .recessive

/-- A recessive bit is 1 and a dominant bit is 0 (R5). -/
def levelBit (l : Level) : Bool := l == .recessive

/-- A bit of value 1 is sent recessive and a bit of value 0 dominant (R5). -/
def bitLevel (b : Bool) : Level := if b then .recessive else .dominant

/-- A byte from its eight bits, bit 0 first. -/
def byteOfBits (bits : List Bool) : Byte := BitVec.ofNat 8 (bits.foldr (fun b n => b.toNat + 2 * n) 0)

/-! ## The character shift state (section 1.4) -/

/-- The level read at sample `k` of the character in reception. -/
def Receiver.sample (r : Receiver) (k : Nat) : Level := if k ∈ r.lows then .dominant else .recessive

/-- The samples 16n + 7, 16n + 8 and 16n + 9 of cell n (R6). -/
def Receiver.tap (r : Receiver) (cell : Nat) : Tap :=
  { a := r.sample (16 * cell + 7), b := r.sample (16 * cell + 8), c := r.sample (16 * cell + 9) }

/-- The value of the bit in a cell, fixed at its mid-bit (R6). -/
def Receiver.bit (r : Receiver) (cell : Nat) : Bool := levelBit (majority (r.tap cell))

/-- The bits taken so far at instant `t`, the start bit first: those of the cells whose mid-bit has been reached (R6). -/
def Receiver.bitsTaken (r : Receiver) (t : Nat) : List Bool :=
  ((List.range 11).filter fun cell => decide (r.startInstant + Config.midBit cell ≤ t)).map r.bit

/-- The start bit is taken dominant, which confirms the start (R7). -/
def Receiver.confirmed (r : Receiver) : Bool := !r.bit 0

/-- The data byte taken at the mid-bits of cells 1 to 8, bit 0 first (R8). -/
def takenData (r : Receiver) : Byte := byteOfBits ((List.range 8).map fun i => r.bit (i + 1))

/-- The edge bit taken at the mid-bit of cell 9 (R8). -/
def takenEdge (r : Receiver) : Bool := r.bit 9

/-- A stop bit taken dominant is a framing fault (R8, R9). -/
def takenFaulty (r : Receiver) : Bool := !r.bit 10

/-- The level of cell `cell` of a character: start, data bits 0 to 7, edge, stop (R5). -/
def charLevel (c : LineChar) (cell : Nat) : Level :=
  if cell = 0 then .dominant
  else if cell ≤ 8 then bitLevel (c.data.getLsbD (cell - 1))
  else if cell = 9 then bitLevel c.edge
  else .recessive

/-- The two kinds of read-back mismatch (R13, R14). -/
inductive MismatchKind where
  | loss
  | lineFault
  deriving DecidableEq, Repr

/-- What the driver reports of a mismatch, and the lost report hands on: a loss or a line fault, the character's index in
the frame, and the cell (R13, R14, R36). -/
structure Mismatch where
  kind : MismatchKind
  index : Nat
  cell : Nat
  deriving DecidableEq, Repr

/-- A character as the receiver delivers it (R8). -/
structure RxChar where
  data : Byte
  edge : Bool
  faulty : Bool
  start : Nat
  driven : Bool
  deriving DecidableEq, Repr

/-! ## Frame fields (section 2.1) -/

/-- The kind in bits 7:5 of char 0, none for the values not used (R19, R23). -/
def kindOf (b : Byte) : Option FrameKind :=
  match b.toNat / 32 with
  | 1 => some .data
  | 2 => some .cast
  | 3 => some .answer
  | _ => none

/-- The number in bits 4:0: sender or answerer in char 0, destination in char 1 (R19). -/
def stationField (b : Byte) : Nat := b.toNat % 32

/-- The seq in bits 7:5 of char 1 (R19). -/
def seqField (b : Byte) : Seq := BitVec.ofNat 3 (b.toNat / 32)

/-- FRESH, bit 7 of char 2 (R19). -/
def freshField (b : Byte) : Bool := 128 ≤ b.toNat

/-- The length in bits 6:0 of char 2 (R19). -/
def lengthField (b : Byte) : Nat := b.toNat % 128

/-- The code in bits 1:0 of char 2 of an ANSWER (section 2.1, note 4). -/
def codeField (b : Byte) : AnswerCode :=
  match b.toNat % 4 with
  | 0 => .taken
  | 1 => .takenAgain
  | 2 => .busy
  | _ => .outOfStep

/-- The kind's value in bits 7:5 (R19). -/
def kindVal : FrameKind → Nat
  | .data => 1
  | .cast => 2
  | .answer => 3

/-- The code's value in bits 1:0 (section 2.1, note 4). -/
def codeVal : AnswerCode → Nat
  | .taken => 0
  | .takenAgain => 1
  | .busy => 2
  | .outOfStep => 3

/-- The header of a DATA frame (section 2.1). -/
def dataHeader (sender : Nat) (seq : Seq) (dest : Nat) (fresh : Bool) (len : Nat) : List Byte :=
  [BitVec.ofNat 8 (32 * kindVal .data + sender), BitVec.ofNat 8 (32 * seq.toNat + dest),
    BitVec.ofNat 8 (128 * fresh.toNat + len)]

/-- The header of a CAST frame (section 2.1). -/
def castHeader (sender len : Nat) : List Byte :=
  [BitVec.ofNat 8 (32 * kindVal .cast + sender), 0x1F, BitVec.ofNat 8 len]

/-- The header of an ANSWER frame (section 2.1). -/
def answerHeader (answerer : Nat) (seq : Seq) (dest : Nat) (code : AnswerCode) : List Byte :=
  [BitVec.ofNat 8 (32 * kindVal .answer + answerer), BitVec.ofNat 8 (32 * seq.toNat + dest),
    BitVec.ofNat 8 (codeVal code)]

/-- The checks of char 0: kind used, number not 31 and not above `h` (R23). -/
def checkChar0 (h : Nat) (b : Byte) : Bool :=
  (kindOf b).isSome && decide (stationField b ≠ 31 ∧ stationField b ≤ h)

/-- The checks of char 1 (R23). -/
def checkChar1 (kind : FrameKind) (b : Byte) : Bool :=
  match kind with
  | .data => decide (stationField b ≠ 31)
  | .cast => decide (stationField b = 31 ∧ seqField b = 0)
  | .answer => true

/-- The checks of char 2 (R23). -/
def checkChar2 (kind : FrameKind) (b : Byte) : Bool :=
  match kind with
  | .data => decide (1 ≤ lengthField b ∧ lengthField b ≤ 120)
  | .cast => !freshField b && decide (1 ≤ lengthField b ∧ lengthField b ≤ 120)
  | .answer => decide (b.toNat < 4)

/-- A good-frame notice (R29). Fields a kind does not carry hold the value its format fixes, or are unused. -/
structure Frame where
  kind : FrameKind
  sender : Nat
  dest : Nat
  seq : Seq
  fresh : Bool
  length : Nat
  payload : List Byte
  code : AnswerCode
  start : Nat
  fin : Nat
  own : Bool
  sameNumber : Bool
  deriving DecidableEq, Repr

/-! ## The CRC (R20) -/

/-- One bit taken into the CRC register. -/
def crcBit (r : Crc) (bit : Bool) : Crc :=
  if r.msb != bit then (r <<< 1) ^^^ 0x1021 else r <<< 1

/-- One byte taken into the CRC register, most significant bit first. -/
def crcByte (r : Crc) (b : Byte) : Crc :=
  [7, 6, 5, 4, 3, 2, 1, 0].foldl (fun r i => crcBit r (b.getLsbD i)) r

/-- The register after a run of bytes, from FFFFh. -/
def crcOf (bytes : List Byte) : Crc := bytes.foldl crcByte 0xFFFF

/-- The high byte of the register, sent first. -/
def crcHigh (r : Crc) : Byte := BitVec.ofNat 8 (r.toNat / 256)

/-- The low byte of the register. -/
def crcLow (r : Crc) : Byte := BitVec.ofNat 8 r.toNat

/-! ## Sequence classification (R77 to R79) -/

/-- The classifications of an arriving DATA frame. -/
inductive Classification where
  | next
  | newLink
  | duplicate
  | stray
  deriving DecidableEq, Repr

/-- The classification of a DATA frame against a peer entry (R78, R79). -/
def classify (e : PeerEntry) (seq : Seq) (fresh : Bool) : Classification :=
  match e.rxExpect with
  | none => .newLink
  | some x =>
    if fresh then
      if seq = x - 1 ∧ e.rxLastFresh = true then .duplicate else .newLink
    else if seq = x then .next
    else if seq = x - 1 then .duplicate
    else .stray

end Sys2Proof.Machine
end

