-- ==== Sys2Proof/Machine/Ops.lean ====
section
/-! DEFINITION. The named operations that the commands share: replacing one block of the state, the cells of the message
pool, the characters that the emitter presents, the sample clock, and claims and releases of blocks. -/

namespace Sys2Proof.Machine

open Sys2Proof

/-- The state with `quiet` replaced. -/
def State.setQuiet (s : State) (v : QuietTimer) : State := { s with quiet := v }

/-- The state with `rx` replaced. -/
def State.setRx (s : State) (v : Receiver) : State := { s with rx := v }

/-- The state with `driver` replaced. -/
def State.setDriver (s : State) (v : Driver) : State := { s with driver := v }

/-- The state with `asm` replaced. -/
def State.setAsm (s : State) (v : Assembler) : State := { s with asm := v }

/-- The state with `em` replaced. -/
def State.setEm (s : State) (v : Emitter) : State := { s with em := v }

/-- The state with `rot` replaced. -/
def State.setRot (s : State) (v : Rotation) : State := { s with rot := v }

/-- The state with `peers` replaced. -/
def State.setPeers (s : State) (v : List PeerEntry) : State := { s with peers := v }

/-- The state with `pend` replaced. -/
def State.setPend (s : State) (v : Option PendingAnswer) : State := { s with pend := v }

/-- The state with `watch` replaced. -/
def State.setWatch (s : State) (v : Watch) : State := { s with watch := v }

/-- The state with `txq` replaced. -/
def State.setTxq (s : State) (v : List TxEntry) : State := { s with txq := v }

/-- The state with `compq` replaced. -/
def State.setCompq (s : State) (v : List CompletionRecord) : State := { s with compq := v }

/-- The state with `pool` replaced. -/
def State.setPool (s : State) (v : Pool) : State := { s with pool := v }

/-- The state with `rxq` replaced. -/
def State.setRxq (s : State) (v : ReceiveQueue) : State := { s with rxq := v }

/-- The state with `port` replaced. -/
def State.setPort (s : State) (v : Port) : State := { s with port := v }

/-- The state with `nextRef` replaced. -/
def State.setNextRef (s : State) (v : Nat) : State := { s with nextRef := v }

/-! ## The cells of the pool

An unlisted cell reads 0 (assumption log 5). -/

/-- Cells in canonical form: addresses strictly rising, and no cell listed that holds what an unlisted one reads as. -/
abbrev cellsWf (m : List Host.Cell) : Prop := m.Pairwise (fun a b => a.1 < b.1) ∧ ∀ c ∈ m, c.2 ≠ 0

/-- The byte at an address. -/
def readCell (m : List Host.Cell) (a : Nat) : Byte :=
  match m with
  | [] => 0
  | (b, v) :: rest => if b = a then v else readCell rest a

/-- The byte at an address replaced, in canonical form. -/
def writeCell (m : List Host.Cell) (a : Nat) (v : Byte) : List Host.Cell :=
  match m with
  | [] => if v = 0 then [] else [(a, v)]
  | (b, w) :: rest =>
    if a < b then (if v = 0 then (b, w) :: rest else (a, v) :: (b, w) :: rest)
    else if a = b then (if v = 0 then rest else (a, v) :: rest)
    else (b, w) :: writeCell rest a v

/-- A run of bytes written from an address upward. -/
def writeCells (m : List Host.Cell) (a : Nat) (bytes : List Byte) : List Host.Cell :=
  match bytes with
  | [] => m
  | v :: rest => writeCells (writeCell m a v) (a + 1) rest

/-- A payload written into blocks, 16 bytes to a block, in order (R130). -/
def fillBlocks (m : List Host.Cell) (blocks : List Nat) (payload : List Byte) : List Host.Cell :=
  match blocks with
  | [] => m
  | b :: rest =>
    fillBlocks (writeCells m (Config.blockBytes * b) (payload.take Config.blockBytes)) rest
      (payload.drop Config.blockBytes)

/-- The address of byte k of a payload held in blocks (R130). -/
def payloadAddress (blocks : List Nat) (k : Nat) : Nat :=
  Config.blockBytes * blocks.getD (k / Config.blockBytes) 0 + k % Config.blockBytes

/-- Byte k of a payload held in blocks (R130). -/
def payloadByte (m : List Host.Cell) (blocks : List Nat) (k : Nat) : Byte := readCell m (payloadAddress blocks k)

/-! ## The characters of the frame being emitted -/

/-- The data byte of character `k` of the frame: header, payload, CRC high, CRC low (R34). -/
def Emitter.charByte (em : Emitter) (cells : List Host.Cell) (k : Nat) : Byte :=
  if k < 3 then em.header.getD k 0
  else if k + 2 < em.count then payloadByte cells em.blocks (k - 3)
  else if k + 2 = em.count then crcHigh em.crc
  else crcLow em.crc

/-- Character `k` as presented to the driver: edge bit 1 on char 0 alone (R34). -/
def Emitter.lineChar (em : Emitter) (cells : List Host.Cell) (k : Nat) : LineChar :=
  { data := em.charByte cells k, edge := decide (k = 0) }

/-- The CRC generator once character `k` has been placed (R20, R34). -/
def Emitter.cover (em : Emitter) (cells : List Host.Cell) (k : Nat) : Emitter :=
  if k + 2 < em.count then { em with crc := crcByte em.crc (em.charByte cells k) } else em

/-- The emitter presents the character after the one the driver is in: the stop cell has begun by instant `t`, the frame
has a further character, and it is not presented yet (R34). -/
def Emitter.presentsTo (em : Emitter) (d : Driver) (t : Nat) : Bool :=
  decide (em.cond = .emitting ∧ em.index + 1 < em.count ∧ d.cond = .driving ∧ d.sent = false ∧ d.next = none ∧
    d.charStart + Config.stopStart ≤ t)

/-- The driver with the next character presented to it (R34). -/
def Driver.present (d : Driver) (c : LineChar) : Driver := { d with next := some c }

/-! ## The sample clock -/

/-- The receiver and the quiet timer run: RSTn is high and the straps were found valid (R2, R3, R10). -/
def State.lineRuns (s : State) : Bool := !s.rstLow && s.straps.valid

/-- The driver at instant `t`: once the stop cell has been compared and reported, its end begins the next character
presented, or leaves the driver IDLE when none is (R11). At the very instant of that end the next character begins before
any command of that instant, a RESTART among them, is taken (the model's choice, assumption log 31). -/
def Driver.runTo (d : Driver) (t : Nat) : Driver :=
  if d.cond = .driving ∧ d.sent = true ∧ d.charStart + Config.charTime ≤ t then
    match d.next with
    | some c => { cond := .driving, char := c, charStart := d.charStart + Config.charTime, sent := false, next := none }
    | none => Driver.init
  else d

/-- The quiet timer at `t + d`, the samples from instant `t` on counted but for one read dominant at `t` itself (R10). DESIGN
CHOICE, unsafe: at an instant it shows the samples before that instant, by R90, where the example of section 10.2 counts the
sample of the instant too (assumption log 27). -/
def QuietTimer.run (q : QuietTimer) (t d : Nat) : QuietTimer :=
  { q with elapsed := min Config.quietMax (q.elapsed + (t + d - max t q.since)) }

/-- `d` samples pass, none of them read dominant (R10, R11, R34). -/
def State.advance (s : State) (d : Nat) : State :=
  let driver := s.driver.runTo (s.now + d)
  let due := s.em.presentsTo driver (s.now + d)
  { s with
    now := s.now + d
    quiet := if s.lineRuns = true then s.quiet.run s.now d else s.quiet
    driver := if due = true then driver.present (s.em.lineChar s.pool.cells (s.em.index + 1)) else driver
    em := if due = true then s.em.cover s.pool.cells (s.em.index + 1) else s.em }

/-- The clock runs on to instant `t`; an instant already past leaves it where it is. -/
def State.runTo (s : State) (t : Nat) : State := s.advance (t - s.now)

/-- Samples still to pass before the quiet timer shows `n` sixteenths of T. -/
def State.untilQuiet (s : State) (n : Nat) : Nat :=
  if n ≤ s.quiet.elapsed then 0 else n - s.quiet.elapsed + (s.quiet.since - s.now)

/-- The quiet timer at a sample read dominant (R10). -/
def QuietTimer.atDominant (t : Nat) : QuietTimer := { elapsed := 0, lastDominant := t, since := t + 1 }

/-- The quiet timer started at 0 at the instant of a reset (R3, R16). -/
def QuietTimer.start (t : Nat) : QuietTimer := { elapsed := 0, lastDominant := t, since := t }

/-- A sample read dominant at instant `t`, in the character shift state of a receiver that is RECEIVING (R6). -/
def Receiver.sawDominant (r : Receiver) (t : Nat) : Receiver :=
  if r.cond = .receiving then { r with lows := r.lows ++ [t - r.startInstant] } else r

/-- The effect of a sample read dominant on the quiet timer and the character shift state (R6, R10). -/
def State.dominantSample (s : State) : State :=
  (s.setQuiet (QuietTimer.atDominant s.now)).setRx (s.rx.sawDominant s.now)

/-- The line interface's receiver and quiet timer reset at this instant (R3, R16, R17). -/
def State.resetReceiver (s : State) : State :=
  (s.setRx Receiver.init).setQuiet (QuietTimer.start s.now)

/-! ## Claims and releases (R129 to R134) -/

/-- The numbers of the FREE blocks, lowest first. -/
def Pool.freeBlocks (p : Pool) : List Nat :=
  (List.range Config.poolBlocks).filter fun b => p.holders.getD b (.transmit 0) = .free

/-- The free count: the number of blocks whose holder is FREE (section 7.1). -/
def Pool.freeCount (p : Pool) : Nat := p.freeBlocks.length

/-- The blocks a claim for `n` is granted: the `n` lowest-numbered FREE blocks (R130). -/
def Pool.grant (p : Pool) (n : Nat) : List Nat := p.freeBlocks.take n

/-- The pool after blocks have passed to a holder and been filled with a payload (R129, R130). -/
def Pool.claim (p : Pool) (blocks : List Nat) (h : Holder) (payload : List Byte) : Pool :=
  { holders := p.holders.mapIdx fun i old => if i ∈ blocks then h else old
    cells := fillBlocks p.cells blocks payload }

/-- The pool after every block of a leaving holder has become FREE (R129, R133, R134). -/
def Pool.release (p : Pool) (h : Holder) : Pool :=
  { p with holders := p.holders.map fun old => if old = h then .free else old }

/-- The pool after a reset: every block FREE, contents not cleared (R139). -/
def Pool.resetHolders (p : Pool) : Pool := { p with holders := List.replicate Config.poolBlocks .free }

/-! ## Entries by reference -/

/-- The first element that meets a test, changed. -/
def updateFirst {α : Type} (p : α → Bool) (f : α → α) : List α → List α
  | [] => []
  | x :: xs => if p x then f x :: xs else x :: updateFirst p f xs

/-- The transmit entry with a reference. -/
def findEntry (q : List TxEntry) (ref : Nat) : Option TxEntry := q.find? fun e => e.ref == ref

/-- The transmit queue with the entry of a reference changed. -/
def updateEntry (q : List TxEntry) (ref : Nat) (f : TxEntry → TxEntry) : List TxEntry :=
  updateFirst (fun e => e.ref == ref) f q

/-- The transmit queue without the entry of a reference; the entries behind it keep their order (R103). -/
def removeEntry (q : List TxEntry) (ref : Nat) : List TxEntry := q.eraseP fun e => e.ref == ref

/-- The state with a new reference taken from the supply. -/
def State.takeRef (s : State) : State := s.setNextRef (s.nextRef + 1)

/-- A saturating count raised by 1 (R63). -/
def satSucc (limit n : Nat) : Nat := min limit (n + 1)

end Sys2Proof.Machine
end

