-- ==== Sys2Proof/Machine/Assembler.lean ====
section
/-! DEFINITION. The frame assembler (chapter 2): what a delivered character does to it and the notice it gives. -/

namespace Sys2Proof.Machine

open Sys2Proof

/-- What the assembler hands on for one character: nothing, a frame-opened notice, a damage notice, each with the frame
start instant, or a good-frame notice (R22, R27, R29). -/
inductive AsmNotice where
  | quiet
  | opened (start : Nat) (kind : FrameKind)
  | damage (start : Nat)
  | good (f : Frame)
  deriving DecidableEq, Repr

/-- The assembler after damage (R27). -/
def Assembler.damaged (a : Assembler) : Assembler :=
  { a with cond := .discarding, buffer := [], count := 0, expected := none, crc := 0xFFFF }

/-- The kind of the frame being assembled, from char 0. -/
def Assembler.kind (a : Assembler) : FrameKind := (kindOf (a.buffer.headD 0x20)).getD .data

/-- Char 0 of a new frame taken, before its checks (R22). -/
def Assembler.takeChar0 (a : Assembler) (c : RxChar) : Assembler :=
  { a with
    buffer := [c.data], count := 1, expected := none, crc := crcByte 0xFFFF c.data, startInstant := c.start,
    dueInstant := c.start + Config.charTime, ownSoFar := c.driven }

/-- The frame opened once char 0 has passed its checks: IN_FRAME, the expected count of an ANSWER known (R22). -/
def Assembler.opened (a : Assembler) (k : FrameKind) : Assembler :=
  { a with cond := .inFrame, expected := if k = .answer then some 5 else none }

/-- A character delivered in IDLE opens a frame or is damage; one that is taken as char 0 and fails its checks leaves the
items it has set (R22, R27). -/
def Assembler.openFrame (a : Assembler) (h : Nat) (c : RxChar) : Assembler × AsmNotice :=
  if c.faulty = false ∧ c.edge = true then
    match kindOf c.data with
    | some k =>
      if checkChar0 h c.data = true then ((a.takeChar0 c).opened k, .opened c.start k)
      else ((a.takeChar0 c).damaged, .damage c.start)
    | none => ((a.takeChar0 c).damaged, .damage c.start)
  else (a.damaged, .damage c.start)

/-- The field checks of the character at the present count (R23). -/
def Assembler.charOk (a : Assembler) (b : Byte) : Bool :=
  if a.count = 1 then checkChar1 a.kind b
  else if a.count = 2 then checkChar2 a.kind b
  else true

/-- The expected count once the character at the present count has passed (R23). -/
def Assembler.expectedWith (a : Assembler) (b : Byte) : Option Nat :=
  if a.count = 2 ∧ a.kind ≠ .answer then some (lengthField b + 5) else a.expected

/-- The running CRC takes every character but the two CRC characters (R23). -/
def Assembler.crcWith (a : Assembler) (b : Byte) : Crc :=
  match a.expectedWith b with
  | some n => if a.count + 2 < n then crcByte a.crc b else a.crc
  | none => crcByte a.crc b

/-- A character taken into the open frame (R23). -/
def Assembler.takeChar (a : Assembler) (c : RxChar) : Assembler :=
  { a with
    buffer := a.buffer ++ [c.data], count := a.count + 1, expected := a.expectedWith c.data,
    crc := a.crcWith c.data, dueInstant := c.start + Config.charTime, ownSoFar := a.ownSoFar && c.driven }

/-- The two CRC characters, taken as one number, equal the running CRC (R20, R26). -/
def Assembler.crcMatches (a : Assembler) : Bool :=
  decide ((a.buffer.getD (a.count - 2) 0).toNat * 256 + (a.buffer.getD (a.count - 1) 0).toNat = a.crc.toNat)

/-- The good-frame notice of the frame in the buffer, for station `own`, with frame end `t` (R29, R31, R32). -/
def Assembler.frame (a : Assembler) (own t : Nat) : Frame :=
  let b0 := a.buffer.getD 0 0
  let b1 := a.buffer.getD 1 0
  let b2 := a.buffer.getD 2 0
  let len := if a.kind = .answer then 0 else lengthField b2
  { kind := a.kind, sender := stationField b0, dest := stationField b1, seq := seqField b1, fresh := freshField b2,
    length := len, payload := (a.buffer.drop 3).take len, code := codeField b2, start := a.startInstant, fin := t,
    own := a.ownSoFar, sameNumber := decide (stationField b0 = own) && !a.ownSoFar }

/-- The frame end: good when the CRC matches, damage otherwise (R26). The count and the expected count return to 0 and
unknown, so that the next char 0 finds them so. -/
def Assembler.finish (a : Assembler) (own t : Nat) : Assembler × AsmNotice :=
  if a.crcMatches = true then ({ a with cond := .idle, count := 0, expected := none }, .good (a.frame own t))
  else (a.damaged, .damage a.startInstant)

/-- A character delivered in IN_FRAME (R23, R24, R26). -/
def Assembler.continueFrame (a : Assembler) (own t : Nat) (c : RxChar) : Assembler × AsmNotice :=
  if c.faulty = false ∧ c.edge = false ∧ a.charOk c.data = true then
    if (a.takeChar c).expected = some (a.takeChar c).count then (a.takeChar c).finish own t
    else (a.takeChar c, .quiet)
  else (a.damaged, .damage a.startInstant)

/-- A character delivered to the assembler of station `own` on a line with highest station `h`, at `t` (R22 to R28). -/
def Assembler.deliver (a : Assembler) (own h t : Nat) (c : RxChar) : Assembler × AsmNotice :=
  match a.cond with
  | .idle => a.openFrame h c
  | .inFrame => a.continueFrame own t c
  | .discarding => (a, .quiet)

end Sys2Proof.Machine
end

