-- ==== Sys2Proof/Machine/Queues.lean ====
section
/-! DEFINITION. The peer table's claims (chapter 4) and the transmit and completion queues' shared operations (chapter
6): the offer, conclusion, the effect of a watch result, the return of a lost attempt, and the cancel. -/

namespace Sys2Proof.Machine

open Sys2Proof

/-! ## The peer table -/

/-- The peer entry of station `k`. -/
def State.peer (s : State) (k : Nat) : PeerEntry := s.peers.getD k PeerEntry.init

/-- The peer entry of station `k` changed. -/
def State.modifyPeer (s : State) (k : Nat) (f : PeerEntry → PeerEntry) : State := s.setPeers (s.peers.modify k f)

/-- The delivered claim's effect on the send state (R69). -/
def PeerEntry.advanceDelivered (p : PeerEntry) : PeerEntry := { p with txSeq := p.txSeq + 1, refreshDue := false }

/-- A refresh: tx_seq advances by 1 and refresh_due becomes true (R70). -/
def PeerEntry.refresh (p : PeerEntry) : PeerEntry := { p with txSeq := p.txSeq + 1, refreshDue := true }

/-- The acceptance claim (R80). -/
def PeerEntry.accept (p : PeerEntry) (seq : Seq) (fresh : Bool) : PeerEntry :=
  { p with rxExpect := some (seq + 1), rxLastFresh := fresh }

/-- The outstanding reference set to an entry (R74). -/
def PeerEntry.setOutstanding (p : PeerEntry) (ref : Nat) : PeerEntry := { p with outstanding := some ref }

/-- The outstanding reference cleared if it names the entry (R74). -/
def PeerEntry.clearOutstanding (p : PeerEntry) (ref : Nat) : PeerEntry :=
  { p with outstanding := if p.outstanding = some ref then none else p.outstanding }

/-- The outcome as last_outcome keeps it: a CANCELLED conclusion and a CAST's leave it as it was (R73). -/
def outcomeKept (o : TxOutcome) (old : Option TxOutcome) : Option TxOutcome :=
  match o with
  | .delivered => some .delivered
  | .noAnswer => some .noAnswer
  | .refused => some .refused
  | .cancelledAfterAttempt => some .cancelledAfterAttempt
  | .sent => old
  | .cancelled => old

/-- The claims of a DATA conclusion on the peer entry: the delivered claim for DELIVERED, the refresh claim where
`refresh` says so, the outcome, and the clearing of the outstanding reference (R116). -/
def PeerEntry.concluded (p : PeerEntry) (ref : Nat) (o : TxOutcome) (refresh : Bool) : PeerEntry :=
  let p1 := if o = .delivered then p.advanceDelivered else if refresh = true then p.refresh else p
  { p1.clearOutstanding ref with lastOutcome := outcomeKept o p.lastOutcome }

/-! ## Conclusion -/

/-- A CAST entry, by its destination (R103). -/
def TxEntry.isCast (e : TxEntry) : Bool := e.dest == Config.castDest

/-- The completion record of an entry (R117). -/
def TxEntry.record (e : TxEntry) (o : TxOutcome) : CompletionRecord :=
  { tag := e.tag, dest := e.dest, outcome := o, attempts := e.attempts, busyAnswers := e.busyAnswers }

/-- A transmit entry concludes, in one step: it leaves the queue, its blocks are released, one completion record is
appended, and for a DATA entry the peer table takes its claims (R116). -/
def State.conclude (s : State) (ref : Nat) (o : TxOutcome) (refresh : Bool) : State :=
  match findEntry s.txq ref with
  | none => s
  | some e =>
    let s1 := ((s.setTxq (removeEntry s.txq ref)).setPool (s.pool.release (.transmit ref))).setCompq
      (s.compq ++ [e.record o])
    if e.isCast = true then s1 else s1.modifyPeer e.dest fun p => p.concluded ref o refresh

/-- The conclusion of an entry by a cancel: CANCELLED_AFTER_ATTEMPT with a refresh if it was ever attempted, CANCELLED
otherwise (R121, R123). -/
def State.concludeCancelled (s : State) (e : TxEntry) : State :=
  if e.attemptedEver = true then s.conclude e.ref .cancelledAfterAttempt true else s.conclude e.ref .cancelled false

/-! ## Selection -/

/-- The test that makes an entry eligible for the offer (R108). -/
def eligible (q : List TxEntry) (e : TxEntry) : Bool :=
  if e.isCast = true then e.state == .waiting
  else (q.find? fun x => x.dest == e.dest).map (·.ref) == some e.ref && e.state != .inFlight && !e.cancelPending

/-- The transmit queue's offer: none while an entry is IN_FLIGHT, otherwise the oldest eligible entry (R108). -/
def offer (q : List TxEntry) : Option TxEntry :=
  if q.any (fun e => e.state == .inFlight) then none else q.find? (eligible q)

/-- The entry taken by the emitter (R109). -/
def TxEntry.select (e : TxEntry) : TxEntry := { e with returnState := e.state, state := .inFlight }

/-! ## The end of an attempt -/

/-- The results a watch gives (R96). -/
inductive WatchResult where
  | code (c : AnswerCode)
  | noAnswer
  deriving DecidableEq, Repr

/-- A BUSY result takes back the attempt and raises busy_answers; every other result leaves the counts (R99 to R102). -/
def TxEntry.countResult (e : TxEntry) (r : WatchResult) : TxEntry :=
  match r with
  | .code .busy => { e with attempts := e.attempts - 1, busyAnswers := e.busyAnswers + 1 }
  | _ => e

/-- The entry back in OUTSTANDING (R114). -/
def TxEntry.keepOutstanding (e : TxEntry) : TxEntry := { e with state := .outstanding }

/-- What a watch result does to the entry once the counts are updated: concludes it, or returns it to OUTSTANDING. -/
inductive ResultEffect where
  | conclude (o : TxOutcome) (refresh : Bool)
  | outstanding (refresh : Bool)
  deriving DecidableEq, Repr

/-- The effect of a watch result on an entry whose counts it has updated; `refresh` is the one refresh claim that the
attempt's end may bring (R71, R99 to R102, R123). -/
def TxEntry.resultEffect (e : TxEntry) (r : WatchResult) : ResultEffect :=
  match r with
  | .code .taken => .conclude .delivered false
  | .code .takenAgain => .conclude .delivered false
  | .code .busy =>
    if e.cancelPending = true then .conclude .cancelledAfterAttempt true
    else if Config.busyLimit ≤ e.busyAnswers then .conclude .refused false
    else .outstanding false
  | .code .outOfStep =>
    if e.cancelPending = true then .conclude .cancelledAfterAttempt true
    else if Config.attemptLimit ≤ e.attempts then .conclude .noAnswer true
    else .outstanding true
  | .noAnswer =>
    if e.cancelPending = true then .conclude .cancelledAfterAttempt true
    else if Config.attemptLimit ≤ e.attempts then .conclude .noAnswer true
    else .outstanding false

/-- The transmit queue applies a watch result to the entry IN_FLIGHT that was watched (R114, R123). -/
def State.applyWatchResult (s : State) (ref : Nat) (r : WatchResult) : State :=
  match findEntry s.txq ref with
  | none => s
  | some e =>
    if e.state = .inFlight then
      let s1 := s.setTxq (updateEntry s.txq ref fun e => e.countResult r)
      match (e.countResult r).resultEffect r with
      | .conclude o refresh => s1.conclude ref o refresh
      | .outstanding refresh =>
        let s2 := s1.setTxq (updateEntry s1.txq ref TxEntry.keepOutstanding)
        if refresh = true then s2.modifyPeer e.dest PeerEntry.refresh else s2
    else s

/-- An attempt ends by a lost report or a "not started": the entry returns to its return state, or a deferred cancel is
applied (R110, R113, R123). -/
def State.returnEntry (s : State) (ref : Nat) : State :=
  match findEntry s.txq ref with
  | none => s
  | some e =>
    if e.cancelPending = true then s.concludeCancelled e
    else
      let s1 := s.setTxq (updateEntry s.txq ref fun e => { e with state := e.returnState })
      if e.isCast = false ∧ e.returnState = .waiting then s1.modifyPeer e.dest fun p => p.clearOutstanding ref else s1

/-- The counts of a DATA entry at its emitted report (R112). -/
def TxEntry.countAttempt (e : TxEntry) : TxEntry := { e with attempts := e.attempts + 1, attemptedEver := true }

/-! ## CANCEL and FLUSH -/

/-- A cancel applied to one entry: concluded at once when WAITING or OUTSTANDING, deferred when IN_FLIGHT (R121). -/
def State.cancelEntry (s : State) (e : TxEntry) : State :=
  if e.state = .inFlight then s.setTxq (updateEntry s.txq e.ref fun e => { e with cancelPending := true })
  else s.concludeCancelled e

/-- The oldest entry with a tag (R121). -/
def findTag (q : List TxEntry) (tag : Byte) : Option TxEntry := q.find? fun e => e.tag == tag

/-- A CANCEL presented to the transmit queue, with its result (R121). -/
def State.cancelTag (s : State) (tag : Byte) : State × Result :=
  match findTag s.txq tag with
  | none => (s, .notFound)
  | some e => (s.cancelEntry e, if e.state = .inFlight then .deferred else .ok)

/-- A FLUSH presented to the transmit queue: a cancel to every entry, oldest first, with its result (R125). -/
def State.flushAll (s : State) : State × Result :=
  (s.txq.foldl State.cancelEntry s,
    if s.txq.any (fun e => e.state == .inFlight) then .deferred else .ok)

end Sys2Proof.Machine
end

