-- ==== Sys2Proof/Machine/Rotation.lean ====
section
/-! DEFINITION. The rotation controller (chapter 3): what each notice, report and claim does to its own state. Each
function changes the controller alone. -/

namespace Sys2Proof.Machine

open Sys2Proof

/-- The change flag set, and set-since-snapshot with it (R64). -/
def Rotation.setChange (r : Rotation) : Rotation := { r with changeFlag := true, setSinceSnapshot := true }

/-- The anchor, the position and every window dropped (R51, R57, R60). -/
def Rotation.unplace (r : Rotation) : Rotation :=
  { r with anchored := false, position := .unplaced, tracked := none, marker := false }

/-- Entry to WITHDRAWN with a cause (R57, R60, R61). -/
def Rotation.withdraw (r : Rotation) (c : WithdrawCause) : Rotation :=
  { r.unplace.setChange with station := .withdrawn, cause := c, leaving := false }

/-- LISTEN or ACTIVE: the states in which the controller holds a rotation or measures toward one. -/
def Rotation.onLine (r : Rotation) : Bool := r.station == .listen || r.station == .active

/-- None of the station's own activities is in progress (R59). -/
def Rotation.betweenActivities (r : Rotation) : Bool := !r.ownFrame && !r.answerWatch && !r.answer

/-- The test at the end of an activity: with leaving-pending set and no activity left the station withdraws (R61). -/
def Rotation.settle (r : Rotation) : Rotation :=
  if r.leaving = true ∧ r.betweenActivities = true ∧ r.onLine = true then r.withdraw .request else r

/-- Entry to LISTEN from ACTIVE at instant `t`; `keep` keeps the tracked window as R55 does (R51). -/
def Rotation.enterListen (r : Rotation) (t : Nat) (keep : Bool) : Rotation :=
  { r.unplace with station := .listen, listenEntry := t, tracked := if keep = true then r.tracked else none }

/-- A frame start instant lies in the interval of the window of a DATA that ended at `e` (R45, R94). -/
def inWindow (e start : Nat) : Bool := decide (e < start ∧ start < e + Config.windowClose)

/-- The tracked window the controller holds for placement: in WINDOW, in FRAME with the marker true, and in LISTEN
(R48). -/
def Rotation.heldWindow (r : Rotation) : Option Nat :=
  if r.station = .listen ∨ r.position = .window ∨ (r.position = .frame ∧ r.marker = true) then r.tracked else none

/-- A frame that began at `start` belongs to the window the controller holds (R45, R48). -/
def Rotation.belongs (r : Rotation) (start : Nat) : Bool :=
  match r.heldWindow with
  | some e => inWindow e start
  | none => false

/-- A frame-opened notice (R42, R45). DEDUCED: a frame that began outside the interval leaves a position WINDOW as it was
(assumption log 36). -/
def Rotation.onFrameOpened (r : Rotation) (start : Nat) : Rotation :=
  if r.station = .active then
    match r.position with
    | .slot => { r with position := .frame, marker := false }
    | .restDue => { r with position := .frame, marker := false }
    | .window => if r.belongs start = true then { r with position := .frame, marker := true } else r
    | .frame => r
    | .unplaced => r
  else r

/-- The position SLOT with slot 0 of the base at `t` (R39, R43, R46). DESIGN CHOICE, unsafe: the slot index is 0 from now on,
also while slot 0 is still to come, 4 T after the end of a CAST or an ANSWER (assumption log 34). -/
def Rotation.beginSlots (r : Rotation) (t : Nat) : Rotation :=
  { r with
    station := .active, anchored := true, baseTime := t, position := .slot, slotIndex := 0, nextSlot := 0,
    tracked := none, marker := false }

/-- The base after a frame from station `k` (R43, R44). -/
def nextBase (h k : Nat) : Nat := (k + 1) % (h + 1)

/-- Damage counted (R48, R50, R63). -/
def Rotation.countDamage (r : Rotation) : Rotation := { r with damaged := satSucc Config.countMax r.damaged }

/-- A misplaced ANSWER taken at `t` (R48). -/
def Rotation.misplaced (r : Rotation) (t : Nat) : Rotation :=
  if r.station = .active then r.countDamage.enterListen t false else r.countDamage

/-- A good-frame notice (R43, R44, R46, R48, R49, R58). -/
def Rotation.onGoodFrame (r : Rotation) (h : Nat) (f : Frame) : Rotation :=
  if r.onLine = true then
    match f.kind with
    | .cast => { r.beginSlots (f.fin + Config.windowOpen) with base := nextBase h f.sender }
    | .data =>
      { r with
        station := .active, anchored := true, base := nextBase h f.sender, baseTime := f.fin + Config.windowClose,
        position := .window, tracked := some f.fin, marker := false }
    | .answer =>
      if r.belongs f.start = true then r.beginSlots (f.fin + Config.windowOpen)
      else if f.own = true then r
      else r.misplaced f.fin
  else r

/-- A damage notice found at `t` (R50). -/
def Rotation.onDamage (r : Rotation) (t : Nat) : Rotation :=
  match r.station with
  | .active => r.countDamage.enterListen t false
  | .listen => { r.countDamage with tracked := none }
  | .withdrawn => r.countDamage
  | .strapFault => r

/-- The window has passed quiet at instant `t`: the provisional base time stands and the slot index is the slot that
contains `t` (R47). -/
def Rotation.passWindow (r : Rotation) (t : Nat) : Rotation :=
  { r with
    position := .slot, tracked := none, marker := false, nextSlot := 0,
    slotIndex := (t - r.baseTime) / Config.slotTime }

/-- A rest reached at `t` (R40, R41). -/
def Rotation.rest (r : Rotation) (t : Nat) : Rotation :=
  { r.beginSlots t with base := 0, rests := satSucc Config.countMax r.rests }

/-- The position after the emitter has taken the station's own request (R53, R59). -/
def Rotation.ownFrameBegun (r : Rotation) : Rotation :=
  { r with position := .frame, marker := false, ownFrame := true }

/-- An emitted report: the fault count falls, and the own-frame activity ends or becomes the answer watch (R56, R59). -/
def Rotation.onEmitted (r : Rotation) (kind : FrameKind) : Rotation :=
  let r1 := { r with faultCount := r.faultCount - 1 }
  match kind with
  | .cast => { r1 with ownFrame := false }.settle
  | .data => { r1 with ownFrame := false, answerWatch := true }
  | .answer => r1

/-- A lost report at `t` for a frame of the station's own that began at `start`, with what the driver found (section 3.1,
R55 to R57, R59). A loss and a line fault count alike, wherever in the frame they fall (R36, R56). -/
def Rotation.onLost (r : Rotation) (kind : FrameKind) (start t : Nat) (_m : Mismatch) : Rotation :=
  let r1 := { r with
    faultCount := satSucc Config.faultLimit r.faultCount, losses := satSucc Config.countMax r.losses,
    ownFrame := if kind = FrameKind.answer then r.ownFrame else false }
  if Config.faultLimit ≤ r1.faultCount then r1.withdraw .faults
  else if r1.station = .active then (r1.enterListen t (r.belongs start)).settle
  else r1.settle

/-- The answer unit reports an answer due (R59). -/
def Rotation.answerDue (r : Rotation) : Rotation := { r with answer := true }

/-- The answer unit reports the answer ended (R59, R61). -/
def Rotation.answerEnded (r : Rotation) : Rotation := { r with answer := false }.settle

/-- The answer unit reports the watch closed (R59, R61). -/
def Rotation.watchClosed (r : Rotation) : Rotation := { r with answerWatch := false }.settle

/-- LEAVE taken in LISTEN or ACTIVE, with the result it gives (R60, R172). -/
def Rotation.leave (r : Rotation) : Rotation × Result :=
  if r.betweenActivities = true then (r.withdraw .request, .ok) else ({ r with leaving := true }, .deferred)

/-- REJOIN taken in WITHDRAWN at `t` (R62). -/
def Rotation.rejoin (r : Rotation) (t : Nat) : Rotation :=
  { r.setChange with station := .listen, faultCount := 0, listenEntry := t }

/-- The slot whose start is the next that the clock at `t` can reach: not below those taken, and not before `t`
(R39, R47). -/
def Rotation.upcomingSlot (r : Rotation) (t : Nat) : Nat :=
  max r.nextSlot ((t - r.baseTime + (Config.slotTime - 1)) / Config.slotTime)

/-- Slot `i` begins (R39). -/
def Rotation.takeSlot (r : Rotation) (i : Nat) : Rotation := { r with slotIndex := i, nextSlot := i + 1 }

/-- Slot `i` belongs to station `own` (R39). -/
def Rotation.ownsSlot (r : Rotation) (h own i : Nat) : Bool := decide (i ≤ h ∧ (r.base + i) % (h + 1) = own)

end Sys2Proof.Machine
end

