-- ==== Sys2Proof/Machine/Emission.lean ====
section
/-! DEFINITION. The frame emitter (section 2.7): how a request begins a frame, the own turn,
and the emitted and lost reports it makes to the frame's owner, the rotation controller and the answer unit. -/

namespace Sys2Proof.Machine

open Sys2Proof

/-- The emitter with a request taken at `t`: an ANSWER has length 0, so both kinds have length + 5 characters (R33). -/
def Emitter.begin (source : FrameSource) (header : List Byte) (blocks : List Nat) (len t : Nat) : Emitter :=
  { cond := .emitting, source := source, header := header, blocks := blocks, length := len, index := 0,
    count := len + 5, crc := 0xFFFF, frameStart := t }

/-- The driver begins the start cell of a frame's first character at `t` (R11). -/
def Driver.start (c : LineChar) (t : Nat) : Driver :=
  { cond := .driving, char := c, charStart := t, sent := false, next := none }

/-- The emitter takes a request: char 0 goes to the driver at once (R33). -/
def State.beginFrame (s : State) (source : FrameSource) (header : List Byte) (blocks : List Nat) (len : Nat) : State :=
  let em := Emitter.begin source header blocks len s.now
  (s.setEm (em.cover s.pool.cells 0)).setDriver (Driver.start (em.lineChar s.pool.cells 0) s.now)

/-- The line is idle: 4 T of quiet, the assembler IDLE, the receiver not RECEIVING (R52, R90). -/
def State.lineIdle (s : State) : Bool :=
  decide (Config.settleGap ≤ s.quiet.elapsed) && s.asm.cond == .idle && s.rx.cond != .receiving

/-! ## The station's own turn -/

/-- The request of a transmit entry taken by the emitter (R33, R53, R68, R93, R109). -/
def State.startEntry (s : State) (e : TxEntry) : State :=
  let s1 := (s.setTxq (updateEntry s.txq e.ref TxEntry.select)).setRot s.rot.ownFrameBegun
  if e.isCast = true then
    s1.beginFrame (.transmit e.ref .cast) (castHeader s.straps.own e.length) e.blocks e.length
  else
    let p := s.peer e.dest
    let s2 := (s1.modifyPeer e.dest fun p => p.setOutstanding e.ref).setWatch
      (.noted { entry := e.ref, dest := e.dest, seq := p.txSeq })
    s2.beginFrame (.transmit e.ref .data) (dataHeader s.straps.own p.txSeq e.dest p.refreshDue e.length) e.blocks
      e.length

/-- The emitter refuses the request with "not started": the entry keeps the state it held, and a deferred cancel is
applied (R53, R110). -/
def State.notStarted (s : State) (e : TxEntry) : State :=
  (s.setTxq (updateEntry s.txq e.ref fun e => { e with returnState := e.state })).returnEntry e.ref

/-- The transmit queue's request presented to the emitter at the slot start (R33, R53, R109). -/
def State.requestEntry (s : State) (e : TxEntry) : State :=
  if s.em.cond = .idle then s.startEntry e else s.notStarted e

/-- The own-turn test at the start of a slot of S (R52, R53). -/
def State.ownTurn (s : State) : State :=
  if s.rot.leaving = false ∧ s.lineIdle = true then
    match offer s.txq with
    | some e => s.requestEntry e
    | none => s
  else s

/-! ## The end of the answer activity -/

/-- The pending answer ends, and the rotation controller is told (R91). -/
def State.endAnswer (s : State) : State := (s.setPend none).setRot s.rot.answerEnded

/-- A report for an ANSWER ends the pending answer that is EMITTING; for a superseded ANSWER it ends nothing (R89,
R91). -/
def State.endEmittedAnswer (s : State) : State :=
  match s.pend with
  | some p => if p.phase = .emitting then s.endAnswer else s
  | none => s

/-! ## The reports -/

/-- The watch at the emitted report for the noted DATA (R93). -/
def Watch.onEmitted (w : Watch) (t : Nat) : Watch :=
  match w with
  | .noted x => .opened x t
  | .shut => .shut
  | .opened x e => .opened x e
  | .holding x e h => .holding x e h

/-- The watch at the lost report for the noted DATA (R93). -/
def Watch.onLost (w : Watch) : Watch :=
  match w with
  | .noted _ => .shut
  | .shut => .shut
  | .opened x e => .opened x e
  | .holding x e h => .holding x e h

/-- The emitted report for a frame of the given source (R35, R56, R59, R91, R93, R111, R112). -/
def State.emittedReport (s : State) (source : FrameSource) : State :=
  match source with
  | .none => s
  | .transmit ref .cast => (s.setRot (s.rot.onEmitted .cast)).conclude ref .sent false
  | .transmit ref _ =>
    ((s.setRot (s.rot.onEmitted .data)).setTxq (updateEntry s.txq ref TxEntry.countAttempt)).setWatch
      (s.watch.onEmitted s.now)
  | .answer => (s.setRot (s.rot.onEmitted .answer)).endEmittedAnswer

/-- The lost report for a frame of the given source that began at `start`, with what the driver found (R36, R55, R91,
R93, R113). The rotation controller takes it before the frame's owner: the manual gives no order (the model's choice,
assumption log 32). DESIGN CHOICE, unsafe: the eighth fault, by a superseded ANSWER, withdraws the station and leaves the new
answer DUE with its activity, so that an ANSWER can begin in WITHDRAWN (R57, R89; assumption log 38). -/
def State.lostReport (s : State) (source : FrameSource) (start : Nat) (m : Mismatch) : State :=
  match source with
  | .none => s
  | .transmit ref .cast => (s.setRot (s.rot.onLost .cast start s.now m)).returnEntry ref
  | .transmit ref _ =>
    ((s.setRot (s.rot.onLost .data start s.now m)).setWatch s.watch.onLost).returnEntry ref
  | .answer => (s.setRot (s.rot.onLost .answer start s.now m)).endEmittedAnswer

/-- The emitter at the driver's "character sent" (R34, R35): it advances its index, or, after the last, reports emitted
and returns to IDLE with no source. -/
def State.charSent (s : State) : State :=
  let k := s.em.index + 1
  if s.em.count ≤ k then
    ((s.setDriver { s.driver with sent := true, next := none }).setEm Emitter.init).emittedReport s.em.source
  else
    (s.setDriver { s.driver with sent := true }).setEm { s.em with index := k }

/-- A mismatch of a kind found in a cell while DRIVING: the driver goes IDLE with LTX released and reports it with the
character index, the character being received loses its driven indication, and the emitter reports lost and returns to
IDLE (R13, R14, R15, R36). -/
def State.mismatch (s : State) (kind : MismatchKind) (cell : Nat) : State :=
  let s1 := (s.setDriver Driver.init).setRx { s.rx with driven := false }
  if s.em.cond = .emitting then
    (s1.setEm Emitter.init).lostReport s.em.source s.em.frameStart { kind := kind, index := s.em.index, cell := cell }
  else s1

end Sys2Proof.Machine
end

