-- ==== Sys2Proof/Machine/Answers.lean ====
section
/-! DEFINITION. The answer unit in both roles (chapter 5), the receive path (chapter 8), and how the notices of the
frame assembler reach the blocks that act on them. -/

namespace Sys2Proof.Machine

open Sys2Proof

/-! ## The sender's watch -/

/-- The watch closes with a result: to the transmit queue with the watched entry, and as watch closed to the rotation
controller (R97). -/
def State.closeWatch (s : State) (w : Watched) (r : WatchResult) : State :=
  ((s.setWatch .shut).setRot s.rot.watchClosed).applyWatchResult w.entry r

/-- A frame-opened notice at the watch: a frame of the window is held, in time or not (R94). DEDUCED: any other frame leaves
the watch as it was (assumption log 36). -/
def Watch.onFrameOpened (w : Watch) (start : Nat) (kind : FrameKind) : Watch :=
  match w with
  | .opened x e =>
    if inWindow e start = true then
      .holding x e
        { start := start, kind := kind,
          inTime := decide (e + Config.inTimeFrom ≤ start ∧ start ≤ e + Config.inTimeTo) }
    else .opened x e
  | .shut => .shut
  | .noted x => .noted x
  | .holding x e h => .holding x e h

/-- A damage notice at the watch: in OPEN for a frame of the window, in HOLDING for the held frame (R94, R96, R98). -/
def State.watchDamage (s : State) (start : Nat) : State :=
  match s.watch with
  | .opened w e => if inWindow e start = true then s.closeWatch w .noAnswer else s
  | .holding w _ h => if start = h.start then s.closeWatch w .noAnswer else s
  | .noted _ => s
  | .shut => s

/-- The result of a held frame at its good frame end: the code of a matching ANSWER in time, offered to the answer unit,
and no answer otherwise (R96). -/
def heldResult (own : Nat) (w : Watched) (h : HeldFrame) (f : Frame) : WatchResult :=
  if f.kind = .answer ∧ f.own = false ∧ f.sameNumber = false ∧ h.inTime = true ∧ f.sender = w.dest ∧ f.dest = own ∧
      f.seq = w.seq then .code f.code
  else .noAnswer

/-- A good frame's end at the watch that holds it (R96). -/
def State.watchFrameEnd (s : State) (f : Frame) : State :=
  match s.watch with
  | .holding w _ h => if f.start = h.start then s.closeWatch w (heldResult s.straps.own w h f) else s
  | .opened _ _ => s
  | .noted _ => s
  | .shut => s

/-- A character of the window that gives no notice, a glitch or one that a DISCARDING assembler ignores, closes at this
instant a watch that waited for it past the window end (R95). -/
def State.watchPassed (s : State) (start : Nat) : State :=
  match s.watch with
  | .opened w e =>
    if inWindow e start = true ∧ e + Config.windowClose ≤ s.now then s.closeWatch w .noAnswer else s
  | .holding _ _ _ => s
  | .noted _ => s
  | .shut => s

/-! ## The addressee's decision and the receive path -/

/-- Room for `n` blocks: fewer than 24 records, and at least `n` free blocks, without the receive reserve (R86). -/
def State.hasRoom (s : State) (n : Nat) : Bool :=
  decide (s.rxq.records.length < Config.receiveDepth ∧ n ≤ s.pool.freeCount)

/-- A receive record made from a frame and appended, with its blocks claimed and filled and the tally taken (R88, R132,
R140, R145). -/
def State.appendRecord (s : State) (f : Frame) (cls : RecordClass) : State :=
  let blocks := s.pool.grant (Config.blocksFor f.length)
  let rec1 : ReceiveRecord :=
    { ref := s.nextRef, source := f.sender, cls := cls, castsLost := s.rxq.tally, length := f.length, blocks := blocks }
  ((s.setPool (s.pool.claim blocks (.receive s.nextRef) f.payload)).setRxq
    { records := s.rxq.records ++ [rec1], tally := 0 }).takeRef

/-- An earlier pending answer is ended, as not started or while its emission continues, and reported so (R89). -/
def State.supersede (s : State) : State := if s.pend.isSome = true then s.endAnswer else s

/-- The pending answer made DUE, an earlier one ended first, and reported to the rotation controller (R59, R86, R89;
assumption log 13). -/
def State.answerDue (s : State) (f : Frame) (code : AnswerCode) : State :=
  (s.supersede.setPend (some
    { phase := .due, sender := f.sender, seq := f.seq, code := code, windowStart := f.fin + Config.windowOpen })).setRot
    s.supersede.rot.answerDue

/-- The acceptance of a DATA frame: record, acceptance claim, then the answer due (R88). -/
def State.acceptData (s : State) (f : Frame) (linkNew : Bool) : State :=
  ((s.appendRecord f (.data f.seq linkNew)).modifyPeer f.sender fun p => p.accept f.seq f.fresh).answerDue f .taken

/-- A DATA frame that asks for room: TAKEN when it is found, BUSY otherwise (R86). -/
def State.takeOrBusy (s : State) (f : Frame) (linkNew : Bool) : State :=
  if s.hasRoom (Config.blocksFor f.length) = true then s.acceptData f linkNew else s.answerDue f .busy

/-- The addressee's decision at the frame end of a good DATA addressed to S (R85, R86). -/
def State.decideAnswer (s : State) (f : Frame) : State :=
  if s.rot.onLine = true then
    match classify (s.peer f.sender) f.seq f.fresh with
    | .duplicate => s.answerDue f .takenAgain
    | .stray => s.answerDue f .outOfStep
    | .next => s.takeOrBusy f false
    | .newLink => s.takeOrBusy f true
  else s

/-- A good CAST from another station: recorded when there is room, dropped and tallied otherwise (R143, R144). -/
def State.receiveCast (s : State) (f : Frame) : State :=
  if s.hasRoom (Config.blocksFor f.length) = true then s.appendRecord f .cast
  else s.setRxq { s.rxq with tally := satSucc Config.tallyMax s.rxq.tally }

/-- The offer of a good frame to the answer unit as addressee or to the receive path; an own frame and a same-number
frame are offered to neither (R30, R31, R32). -/
def State.offerFrame (s : State) (f : Frame) : State :=
  if f.own = true ∨ f.sameNumber = true then s
  else
    match f.kind with
    | .data => if f.dest = s.straps.own then s.decideAnswer f else s
    | .cast => s.receiveCast f
    | .answer => s

/-! ## The assembler's notices -/

/-- A good-frame notice at the rotation controller (R30). -/
def State.rotateFrame (s : State) (f : Frame) : State := s.setRot (s.rot.onGoodFrame s.straps.highest f)

/-- A good frame at its frame end: the rotation controller, the watch that holds it, and the offer, in the order given
(R30, R61, R96, R136). -/
def State.goodFrame (s : State) (order : EndOrder) (f : Frame) : State :=
  let s1 := if order.rotationFirst = true then s.rotateFrame f else s
  let s2 := if order.offerFirst = true then s1.offerFrame f else s1
  let s3 := s2.watchFrameEnd f
  let s4 := if order.rotationFirst = true then s3 else s3.rotateFrame f
  if order.offerFirst = true then s4 else s4.offerFrame f

/-- A damage notice at the rotation controller and then the answer unit, an order the manual leaves open (R27, R50, R94; the
model's choice, assumption log 14). -/
def State.damageNotice (s : State) (start : Nat) : State := (s.setRot (s.rot.onDamage s.now)).watchDamage start

/-- A frame-opened notice at the rotation controller and the answer unit (R22, R42, R45, R94). -/
def State.openedNotice (s : State) (start : Nat) (kind : FrameKind) : State :=
  (s.setRot (s.rot.onFrameOpened start)).setWatch (s.watch.onFrameOpened start kind)

/-- The assembler's notice reaches its readers. -/
def State.notice (s : State) (order : EndOrder) (n : AsmNotice) : State :=
  match n with
  | .quiet => s
  | .opened start kind => s.openedNotice start kind
  | .damage start => s.damageNotice start
  | .good f => s.goodFrame order f

/-- A character delivered to the assembler, with what follows from it (R22 to R30, R95). DESIGN CHOICE, unsafe: a character
for which an OPEN watch waits past its window end, delivered into a frame begun at E or before, brings no notice for it and
leaves the watch OPEN until another WATCH_WINDOW_END (assumption log 35). -/
def State.deliver (s : State) (order : EndOrder) (c : RxChar) : State :=
  let out := s.asm.deliver s.straps.own s.straps.highest s.now c
  let s1 := (s.setAsm out.1).notice order out.2
  if s.asm.cond = .discarding then s1.watchPassed c.start else s1

end Sys2Proof.Machine
end

