-- ==== Sys2Proof/Machine/Flags.lean ====
section
/-! DEFINITION. What the host sees as flags and codes: the byte codes of section 9.3, the summary byte, the STATUS block,
the peer block, the receive header and the completion block, and the output pins ATTN, LTX and MISO. -/

namespace Sys2Proof.Machine

open Sys2Proof

/-- A byte whose bit `k` is `b` and whose other bits are 0. -/
def bitAt (k : Nat) (b : Bool) : Byte := if b then BitVec.ofNat 8 (2 ^ k) else 0

/-- A number as a byte. -/
def numByte (n : Nat) : Byte := BitVec.ofNat 8 n

/-- The result values (section 9.3). -/
def resultByte : Result → Byte
  | .ok => 0x00
  | .deferred => 0x01
  | .full => 0x21
  | .noRoom => 0x22
  | .invalid => 0x23
  | .incomplete => 0x24
  | .unknownCommand => 0x25
  | .notFound => 0x26
  | .empty => 0x27
  | .wrongState => 0x28

/-- The station state codes (section 9.3, summary bits 3:2). -/
def stationCode : StationState → Nat
  | .listen => 0
  | .active => 1
  | .withdrawn => 2
  | .strapFault => 3

/-- The outcome codes (section 9.3, REAP byte 4). -/
def outcomeByte : TxOutcome → Byte
  | .delivered => 0x00
  | .sent => 0x01
  | .noAnswer => 0x02
  | .refused => 0x03
  | .cancelled => 0x04
  | .cancelledAfterAttempt => 0x05

/-- The last_outcome codes of PEER, NONE as 07h (section 9.3, note 3). -/
def lastOutcomeByte : Option TxOutcome → Byte
  | some o => outcomeByte o
  | none => 0x07

/-- The budget count (R107). -/
def State.budgetCount (s : State) : Nat := s.txq.length + s.compq.length

/-- ATTN is asserted exactly when the receive queue or the completion queue is non-empty or the change flag is set
(R176). -/
def State.attn (s : State) : Bool := !s.rxq.records.isEmpty || !s.compq.isEmpty || s.rot.changeFlag

/-- The summary byte (R160, section 9.3). -/
def State.summary (s : State) : Byte :=
  bitAt 7 (!s.rxq.records.isEmpty) ||| bitAt 6 (!s.compq.isEmpty) ||| bitAt 5 s.rot.changeFlag |||
    bitAt 4 s.rot.anchored ||| numByte (4 * stationCode s.rot.station) ||| bitAt 1 s.rot.leaving |||
    bitAt 0 (decide (s.budgetCount = Config.budget))

/-- The high byte and the low byte of a 16-bit count, high byte first. -/
def countBytes (n : Nat) : List Byte := [numByte (n / 256), numByte n]

/-- The sixteen bytes of the STATUS block, bytes 2 to 17 (R168, section 9.3). -/
def State.statusBlock (s : State) : List Byte :=
  [numByte (stationCode s.rot.station) ||| bitAt 2 (s.rot.cause == .request) ||| bitAt 3 s.rot.anchored |||
      bitAt 4 s.rot.leaving ||| bitAt 5 s.rot.changeFlag,
    numByte s.straps.own, numByte s.straps.highest, numByte s.straps.rate, numByte s.rot.base,
    numByte s.rot.faultCount, numByte s.pool.freeCount, numByte s.txq.length, numByte s.compq.length,
    numByte s.rxq.records.length] ++
    countBytes s.rot.damaged ++ countBytes s.rot.losses ++ countBytes s.rot.rests

/-- Header byte 2 of a receive record: class and source (section 9.3). -/
def ReceiveRecord.classByte (r : ReceiveRecord) : Byte :=
  match r.cls with
  | .data _ _ => numByte r.source
  | .cast => numByte (128 + r.source)

/-- Header byte 3 of a receive record: seq and LINK_NEW, 0 for CAST (section 9.3). -/
def ReceiveRecord.seqByte (r : ReceiveRecord) : Byte :=
  match r.cls with
  | .data seq linkNew => numByte (32 * seq.toNat + linkNew.toNat)
  | .cast => 0

/-- The four header bytes of a receive record (R166, section 9.3). -/
def ReceiveRecord.header (r : ReceiveRecord) : List Byte :=
  [r.classByte, r.seqByte, numByte r.length, numByte r.castsLost]

/-- The five bytes of a completion record (R167, section 9.3). -/
def CompletionRecord.block (r : CompletionRecord) : List Byte :=
  [r.tag, numByte r.dest, outcomeByte r.outcome, numByte r.attempts, numByte r.busyAnswers]

/-- The peer block, bytes 2 to 7 of a PEER (section 9.3). -/
def PeerSnapshot.block (p : PeerSnapshot) : List Byte :=
  [numByte p.station, numByte p.txSeq.toNat ||| bitAt 3 p.refreshDue ||| bitAt 4 p.present, p.tag,
    numByte p.position,
    numByte ((p.rxExpect.map (·.toNat)).getD 0) ||| bitAt 3 p.rxExpect.isSome ||| bitAt 4 p.rxLastFresh,
    lastOutcomeByte p.lastOutcome]

/-- The snapshot of peer entry `n`, with the outstanding entry's tag and its position counted from 1 (R82). -/
def State.peerSnapshot (s : State) (n : Nat) : PeerSnapshot :=
  let p := s.peer n
  let named := p.outstanding.bind (findEntry s.txq)
  { station := n, txSeq := p.txSeq, refreshDue := p.refreshDue, present := p.outstanding.isSome,
    tag := (named.map (·.tag)).getD 0,
    position := match p.outstanding with
      | some ref => ((s.txq.findIdx? fun e => e.ref == ref).map (· + 1)).getD 0
      | none => 0
    rxExpect := p.rxExpect, rxLastFresh := p.rxLastFresh, lastOutcome := p.lastOutcome }

/-- The opening readings of a transaction (R155). -/
def State.readOpening (s : State) : OpeningReadings :=
  { summary := s.summary, lastResult := resultByte s.port.lastResult, receiveHead := s.rxq.records.head?,
    completionHead := s.compq.head?, status := s.statusBlock }

/-- LTX is held low exactly while the driver drives a dominant cell (R11). -/
def State.ltxLow (s : State) : Bool :=
  s.driver.cond != .idle && charLevel s.driver.char ((s.now - s.driver.charStart) / Config.bitTime) == .dominant

/-- MISO is high-impedance unless a transaction is OPEN (R154, R159, R178). -/
def State.misoDriven (s : State) : Bool := s.port.state == .opened

end Sys2Proof.Machine
end

