-- ==== Sys2Proof/Machine/Reset.lean ====
section
/-! DEFINITION. The resets: PIN_RESET, RSTN_RELEASE and the RESTART values of every block. -/

namespace Sys2Proof.Machine

open Sys2Proof

/-- Every block above the line interface at its reset values, the rotation controller's given: assembler (R21), peer
table (R67), answer unit (R84), queues (R128), pool (R139), receive queue (R153) and host port (R178). -/
def State.resetBlocks (s : State) (r : Rotation) : State :=
  { s with
    asm := Assembler.init, rot := r, peers := List.replicate 31 PeerEntry.init, pend := none, watch := .shut,
    txq := [], compq := [], pool := s.pool.resetHolders, rxq := { records := [], tally := 0 }, port := Port.init,
    nextRef := 0 }

/-- RSTn asserted: every block at its pin-reset values, LTX released, the receiver stopped, the quiet timer held at 0
(R3, R177). The latch holds nothing until the release samples it. -/
def State.pinReset (s : State) : State :=
  { s.resetBlocks (Rotation.init s.now) with
    rstLow := true, straps := { own := 0, highest := 0, rate := 0, valid := false },
    quiet := QuietTimer.start s.now, rx := Receiver.init, driver := Driver.init, em := Emitter.init }

/-- The judgement of the sampled straps (R2). -/
def strapsValid (own highest : Nat) : Bool := decide (1 ≤ highest ∧ highest ≤ 30 ∧ own ≤ highest)

/-- The rotation controller at the release: LISTEN, or STRAP_FAULT with the change flag set (R2, R65). -/
def Rotation.released (t : Nat) (valid : Bool) : Rotation :=
  if valid = true then Rotation.init t else { (Rotation.init t).setChange with station := .strapFault }

/-- RSTn released: the latch samples and judges the straps, and the port enters IDLE, or BARRED with CSn low (R1, R2, R3,
R177). -/
def State.release (s : State) (own highest rate : Nat) (csnLow : Bool) : State :=
  let valid := strapsValid own highest
  { s.pinReset with
    rstLow := false, straps := { own := own, highest := highest, rate := rate, valid := valid },
    rot := Rotation.released s.now valid,
    port := { Port.init with state := if csnLow = true then .barred else .idle } }

/-- RESTART in the line interface and the emitter: a DRIVING driver finishes its character without source, an IDLE one
resets receiver and quiet timer at once (R16, R37). -/
def State.restartLine (s : State) : State :=
  match s.driver.cond with
  | .idle => (s.resetReceiver).setEm Emitter.init
  | .driving =>
    (s.setDriver { s.driver with cond := .finishing, next := none }).setEm
      { Emitter.init with cond := if s.em.cond = .idle then .idle else .finishing }
  | .finishing => s.setEm { Emitter.init with cond := if s.em.cond = .idle then .idle else .finishing }

/-- The rotation controller after RESTART (R65). -/
def Rotation.restarted (t : Nat) : Rotation := (Rotation.init t).setChange

/-- RESTART: every block except the strap latch takes its RESTART values (R174). -/
def State.restart (s : State) : State := (s.restartLine).resetBlocks (Rotation.restarted s.now)

/-- PIN_RESET (R3). -/
def execPinReset (dt : Nat) (s : State) : Host.Outcome State Fault Refusal := .next (s.advance dt).pinReset

/-- RSTN_RELEASE (R2): taken while RSTn is low. -/
def execRstnRelease (dt : Nat) (sn hn : BitVec 5) (rate : BitVec 2) (csnLow : Bool) (s : State) :
    Host.Outcome State Fault Refusal :=
  let s1 := s.advance dt
  .next (if s1.rstLow = true then s1.release sn.toNat hn.toNat rate.toNat csnLow else s1)

end Sys2Proof.Machine
end

