-- ==== Sys2Proof/Machine/Port.lean ====
section
/-! DEFINITION. The host port's transactions (chapter 9): the opening, the edges of SCK, the decode of byte 0, the
exchange of the bytes that follow, the bit on MISO, and the close with its result. -/

namespace Sys2Proof.Machine

open Sys2Proof

/-- The byte index of an OPEN transaction: the bytes exchanged whole so far (R154). -/
def Port.byteIndex (p : Port) : Nat := p.returned.length

/-- The bit count: the bits of the present byte shifted so far (R154). -/
def Port.bitCount (p : Port) : Nat := p.bitsIn.length

/-- A byte boundary: no bit of the present byte shifted, SCK low (R154). -/
def Port.atBoundary (p : Port) : Bool := p.bitsIn.isEmpty && !p.sckHigh

/-- A byte from its bits as they are sent, most significant bit first (R154). -/
def byteOfMosi (bits : List Bool) : Byte := byteOfBits bits.reverse

/-- A rising edge of SCK samples a bit from MOSI; the eighth of a byte completes it, and `whole` acts on the byte (R154). -/
def State.sckRise (s : State) (mosi : Bool) (whole : Byte → State → State) : State :=
  if s.port.sckHigh = true then s
  else if s.port.bitCount < 7 then
    s.setPort { s.port with bitsIn := s.port.bitsIn ++ [mosi], sckHigh := true }
  else whole (byteOfMosi (s.port.bitsIn ++ [mosi])) (s.setPort { s.port with bitsIn := [], sckHigh := true })

/-- A falling edge of SCK, at which MISO changes (R154). -/
def State.sckFall (s : State) : State := s.setPort { s.port with sckHigh := false }

/-- Eight cycles of SCK from a byte boundary (R154). -/
def State.sckByte (s : State) (b : Byte) (whole : Byte → State → State) : State :=
  if s.port.atBoundary = true then whole b s else s

/-- An OPEN transaction whose byte 0 selected the given command. -/
def State.runs (s : State) (c : HostCommand) : Bool := s.port.state == .opened && s.port.command == some c

/-- The opening (R155): readings fixed, byte index and bit count 0, set-since-snapshot cleared. -/
def State.openTransaction (s : State) : State :=
  (s.setPort
    { s.port with
      state := .opened, bitsIn := [], sckHigh := false, command := none, params := [], returned := []
      opening := some s.readOpening, peerSnapshot := none }).setRot { s.rot with setSinceSnapshot := false }

/-- TRANSACTION_OPEN (R155): the fall of CSn while the port is IDLE. -/
def execTransactionOpen (dt : Nat) (s : State) : Host.Outcome State Fault Refusal :=
  let s1 := s.advance dt
  .next (if s1.rstLow = false ∧ s1.port.state = .idle then s1.openTransaction else s1)

/-- The summary byte fixed at the opening. -/
def Port.summaryByte (p : Port) : Byte := (p.opening.map (·.summary)).getD 0

/-- The opening readings that command `c` uses; those it does not use are discarded (R155). -/
def OpeningReadings.keepFor (r : OpeningReadings) (c : HostCommand) : OpeningReadings :=
  { r with
    receiveHead := if c = .take then r.receiveHead else none
    completionHead := if c = .reap then r.completionHead else none
    status := if c = .status then r.status else [] }

/-- The decode of byte 0, whose exchange returns the summary byte (R155, R156, R160). -/
def State.decodeCommand (b : Byte) (s : State) : State :=
  s.setPort { s.port with
    command := some (commandOfByte b), returned := [s.port.summaryByte]
    opening := s.port.opening.map fun r => r.keepFor (commandOfByte b) }

/-- A step of byte 0 (R154, R156). -/
def State.firstByte (s : State) (step : FirstByteStep) : State :=
  match step with
  | .rise m => s.sckRise m State.decodeCommand
  | .fall => s.sckFall
  | .byte b => s.sckByte b State.decodeCommand

/-- COMMAND_DECODE (R156). -/
def execCommandDecode (dt : Nat) (step : FirstByteStep) (s : State) : Host.Outcome State Fault Refusal :=
  let s1 := s.advance dt
  .next (if s1.port.state = .opened ∧ s1.port.command = none then s1.firstByte step else s1)

/-- VOID_TRANSACTION (R159): a close before byte 0 is whole. -/
def execVoidTransaction (dt : Nat) (s : State) : Host.Outcome State Fault Refusal :=
  let s1 := s.advance dt
  .next
    (if s1.port.state = .opened ∧ s1.port.command = none then
      s1.setPort { s1.port with state := .idle, bitsIn := [], sckHigh := false }
    else s1)

/-- BARRED_CSN_RISE (R159). -/
def execBarredCsnRise (dt : Nat) (s : State) : Host.Outcome State Fault Refusal :=
  let s1 := s.advance dt
  .next (if s1.port.state = .barred then s1.setPort { s1.port with state := .idle } else s1)

/-! ## The bytes after byte 0 -/

/-- The payload byte `k` of a receive record, read from its blocks, and 00h beyond its length (R149, R166). -/
def State.recordPayload (s : State) (r : ReceiveRecord) (k : Nat) : Byte :=
  if k < r.length then payloadByte s.pool.cells r.blocks k else 0

/-- What a TAKE returns at byte `k` of the transaction, from byte 2 (R149). -/
def State.takeByte (s : State) (r : ReceiveRecord) (k : Nat) : Byte :=
  if k < 6 then r.header.getD (k - 2) 0 else s.recordPayload r (k - 6)

/-- The byte the port returns at byte index `k`, from byte 1 on: the last-result byte, then the command's data, and 00h
beyond it (R157, R162). In STRAP_FAULT a TAKE reads nothing (R166), and a REAP is refused in the same way (R167). -/
def State.returnByte (s : State) (c : HostCommand) (k : Nat) : Byte :=
  if k = 1 then (s.port.opening.map (·.lastResult)).getD 0
  else
    match c with
    | .take =>
      if s.rot.station = .strapFault then 0
      else ((s.port.opening.bind (·.receiveHead)).map fun r => s.takeByte r k).getD 0
    | .reap =>
      if s.rot.station = .strapFault then 0
      else ((s.port.opening.bind (·.completionHead)).map fun r => r.block.getD (k - 2) 0).getD 0
    | .status => ((s.port.opening.map (·.status)).getD []).getD (k - 2) 0
    | .peer => (s.port.peerSnapshot.map fun p => p.block.getD (k - 2) 0).getD 0
    | .nop => 0
    | .post => 0
    | .cancel => 0
    | .flush => 0
    | .leave => 0
    | .rejoin => 0
    | .restart => 0
    | .unknown => 0

/-- The length a POST in progress carries, 0 while byte 3 is not taken. -/
def Port.postLength (p : Port) : Nat := (p.params.getD 2 0).toNat

/-- A length that a message may have (R104). -/
def validLength (len : Nat) : Bool := decide (1 ≤ len ∧ len ≤ Config.maxLength)

/-- The next byte of a POST is a payload byte that is staged: its parameters are taken, the length is 1 to 120, the byte
lies in bytes 4 to L + 3, and the station is not in STRAP_FAULT (R164). -/
def State.stagesNext (s : State) : Bool :=
  s.runs .post && decide (4 ≤ s.port.byteIndex ∧ s.port.byteIndex < 4 + s.port.postLength) &&
    validLength s.port.postLength && s.rot.station != .strapFault

/-- A payload byte put at its place in the staging buffer; the first starts the staged count from 0 (R164). -/
def Port.stage (p : Port) (b : Byte) : Port :=
  { p with staging := if p.byteIndex = 4 then [b] else p.staging ++ [b] }

/-- The number of parameter bytes a command takes, from byte 1 (section 9.3). -/
def paramCount : HostCommand → Nat
  | .post => 3
  | .peer => 1
  | .cancel => 1
  | .nop => 0
  | .take => 0
  | .reap => 0
  | .status => 0
  | .flush => 0
  | .leave => 0
  | .rejoin => 0
  | .restart => 0
  | .unknown => 0

/-- PEER's judgement of its parameter against the straps held (R170). -/
def StrapLatch.peerInUse (l : StrapLatch) (n : Nat) : Bool := decide (n ≠ l.own ∧ n ≤ l.highest ∧ n ≤ 30)

/-- A parameter byte taken; PEER's is judged and its snapshot taken at this instant (R157, R170). -/
def State.takeParam (s : State) (c : HostCommand) (b : Byte) : State :=
  if s.port.params.length < paramCount c then
    s.setPort { s.port with
      params := s.port.params ++ [b]
      peerSnapshot :=
        if c = .peer ∧ s.straps.peerInUse b.toNat = true then some (s.peerSnapshot b.toNat) else s.port.peerSnapshot }
  else s

/-- The byte at the present index counted clocked out, with the value the port returned in it (R154, R157). -/
def Port.clockOut (p : Port) (b : Byte) : Port := { p with returned := p.returned ++ [b] }

/-- A byte after byte 0 exchanged whole: the value returned is fixed as the byte begins, and the byte received is a
payload byte, a parameter, or ignored (R157, R164). -/
def State.exchange (c : HostCommand) (b : Byte) (s : State) : State :=
  let out := s.returnByte c s.port.byteIndex
  let s1 := if s.stagesNext = true then s.setPort (s.port.stage b) else s.takeParam c b
  s1.setPort (s1.port.clockOut out)

/-- POST_PAYLOAD_BYTE (R164). -/
def execPostPayloadByte (dt : Nat) (b : Byte) (s : State) : Host.Outcome State Fault Refusal :=
  let s1 := s.advance dt
  .next (if s1.stagesNext = true then s1.sckByte b (State.exchange .post) else s1)

/-! ## MISO -/

/-- The byte that the port is returning: the summary byte before the decode, and the byte of the present index after it
(R156, R157). -/
def State.outByte (s : State) : Byte :=
  match s.port.command with
  | none => s.port.summaryByte
  | some c => s.returnByte c s.port.byteIndex

/-- The bit on MISO, none while it is high-impedance: the first bit from the opening, each later one from a falling edge of
SCK, most significant bit first (R154). While SCK is high MISO still shows the bit of the edge just sampled, which after
the eighth is the last bit of the byte just clocked out. -/
def State.misoBit (s : State) : Option Bool :=
  if s.port.state = .opened then
    some
      (if s.port.sckHigh = true then
        if s.port.bitCount = 0 then (s.port.returned.getLastD 0).getLsbD 0
        else s.outByte.getLsbD (8 - s.port.bitCount)
      else s.outByte.getLsbD (7 - s.port.bitCount))
  else none

/-! ## The close -/

/-- The port back in IDLE with the result the transaction sets, if it sets one (R154, R158). -/
def Port.closeWith (p : Port) (r : Option Result) : Port :=
  { p with state := .idle, bitsIn := [], sckHigh := false, lastResult := r.getD p.lastResult }

/-- The state at the close, after the command's effect has given `r` (R158). -/
def State.closeWith (s : State) (r : Option Result) : State := s.setPort (s.port.closeWith r)

/-- The close of a command that acts at the close: WRONG_STATE in STRAP_FAULT, INCOMPLETE where a parameter is lacking,
otherwise its own effect and result (R158, R175). -/
def State.closeCommand (s : State) (complete : Bool) (act : State → State × Result) : State :=
  if s.rot.station = .strapFault then s.closeWith (some .wrongState)
  else if complete = true then (act s).1.closeWith (some (act s).2)
  else s.closeWith (some .incomplete)

/-- The steps of an OPEN transaction after byte 0, of command `c`, with what its close does. -/
def State.hostStep (s : State) (c : HostCommand) (phase : HostPhase) (close : State → State) : State :=
  if s.runs c = true then
    match phase with
    | .rise m => s.sckRise m (State.exchange c)
    | .fall => s.sckFall
    | .byte b => s.sckByte b (State.exchange c)
    | .close => close s
  else s

end Sys2Proof.Machine
end

