-- ==== Sys2Proof/Machine/Commands.lean ====
section
/-! DEFINITION. The host commands (section 9.4): what each does at its close. -/

namespace Sys2Proof.Machine

open Sys2Proof

/-! ## POST -/

/-- The POST is complete: three parameters, and the payload bytes a valid length requires (R104, R165). -/
def State.postComplete (s : State) : Bool :=
  s.port.params.length == 3 &&
    (!validLength s.port.postLength || decide (4 + s.port.postLength ≤ s.port.byteIndex))

/-- Checks 3 to 5 of R104 in their order, for a destination and a length. -/
def State.judgePost (s : State) (dest len : Nat) : Result :=
  if dest = s.straps.own ∨ (dest ≠ Config.castDest ∧ s.straps.highest < dest) ∨ validLength len = false then .invalid
  else if Config.budget ≤ s.budgetCount then .full
  else if s.pool.freeCount < Config.blocksFor len + Config.receiveReserve then .noRoom
  else .ok

/-- A transmit entry appended with its blocks claimed and filled (R105). Its return state, which R105 gives no value, is
WAITING until the first selection sets it (the model's choice, assumption log 33). -/
def State.appendEntry (s : State) (dest : Nat) (tag : Byte) (len : Nat) (payload : List Byte) : State :=
  let blocks := s.pool.grant (Config.blocksFor len)
  let e : TxEntry :=
    { ref := s.nextRef, tag := tag, dest := dest, length := len, blocks := blocks, state := .waiting,
      returnState := .waiting, attempts := 0, busyAnswers := 0, attemptedEver := false, cancelPending := false }
  ((s.setPool (s.pool.claim blocks (.transmit s.nextRef) payload)).setTxq (s.txq ++ [e])).takeRef

/-- A POST presented to the transmit queue (R104, R105, R165). -/
def State.presentPost (s : State) : State × Result :=
  let dest := (s.port.params.getD 0 0).toNat
  let len := s.port.postLength
  match s.judgePost dest len with
  | .ok => (s.appendEntry dest (s.port.params.getD 1 0) len s.port.staging, .ok)
  | r => (s, r)

/-- POST (R164, R165). -/
def execPost (dt : Nat) (phase : HostPhase) (s : State) : Host.Outcome State Fault Refusal :=
  .next ((s.advance dt).hostStep .post phase fun s => s.closeCommand s.postComplete State.presentPost)

/-! ## TAKE and REAP -/

/-- The head receive record leaves the queue and its blocks are released (R150). -/
def State.removeHeadRecord (s : State) : State :=
  match s.rxq.records with
  | [] => s
  | r :: rest => (s.setRxq { s.rxq with records := rest }).setPool (s.pool.release (.receive r.ref))

/-- TAKE's own judgement at the close (R149, R166). -/
def State.presentTake (s : State) : State × Result :=
  match s.port.opening.bind (·.receiveHead) with
  | none => (s, .empty)
  | some r => if r.length + 6 ≤ s.port.byteIndex then (s.removeHeadRecord, .ok) else (s, .incomplete)

/-- TAKE (R166). -/
def execTake (dt : Nat) (phase : HostPhase) (s : State) : Host.Outcome State Fault Refusal :=
  .next ((s.advance dt).hostStep .take phase fun s => s.closeCommand true State.presentTake)

/-- REAP's own judgement at the close: the head completion record is removed when all five bytes were clocked out
(R119, R167). -/
def State.presentReap (s : State) : State × Result :=
  match s.port.opening.bind (·.completionHead) with
  | none => (s, .empty)
  | some _ => if 7 ≤ s.port.byteIndex then (s.setCompq s.compq.tail, .ok) else (s, .incomplete)

/-- REAP (R167). -/
def execReap (dt : Nat) (phase : HostPhase) (s : State) : Host.Outcome State Fault Refusal :=
  .next ((s.advance dt).hostStep .reap phase fun s => s.closeCommand true State.presentReap)

/-! ## STATUS and PEER -/

/-- The clear request of a complete STATUS (R64, R169). -/
def Rotation.clearRequest (r : Rotation) : Rotation :=
  if r.setSinceSnapshot = false then { r with changeFlag := false } else r

/-- STATUS at its close, in every station state (R168, R169). -/
def State.closeStatus (s : State) : State :=
  if 18 ≤ s.port.byteIndex then (s.setRot s.rot.clearRequest).closeWith (some .ok)
  else s.closeWith (some .incomplete)

/-- STATUS (R168). -/
def execStatus (dt : Nat) (phase : HostPhase) (s : State) : Host.Outcome State Fault Refusal :=
  .next ((s.advance dt).hostStep .status phase State.closeStatus)

/-- PEER at its close, in every station state: INCOMPLETE without its parameter, otherwise as judged when the parameter
was taken (R170). -/
def State.closePeer (s : State) : State :=
  s.closeWith
    (some (if s.port.params.isEmpty = true then .incomplete
      else if s.port.peerSnapshot.isSome = true then .ok
      else .invalid))

/-- PEER (R170). -/
def execPeer (dt : Nat) (phase : HostPhase) (s : State) : Host.Outcome State Fault Refusal :=
  .next ((s.advance dt).hostStep .peer phase State.closePeer)

/-! ## CANCEL and FLUSH -/

/-- CANCEL (R121, R171). -/
def execCancel (dt : Nat) (phase : HostPhase) (s : State) : Host.Outcome State Fault Refusal :=
  .next ((s.advance dt).hostStep .cancel phase fun s =>
    s.closeCommand (!s.port.params.isEmpty) fun s => s.cancelTag (s.port.params.headD 0))

/-- FLUSH (R125, R171). -/
def execFlush (dt : Nat) (phase : HostPhase) (s : State) : Host.Outcome State Fault Refusal :=
  .next ((s.advance dt).hostStep .flush phase fun s => s.closeCommand true State.flushAll)

/-! ## LEAVE, REJOIN and RESTART -/

/-- LEAVE's judgement (R60, R172). -/
def State.presentLeave (s : State) : State × Result :=
  if s.rot.station = .withdrawn then (s, .wrongState) else (s.setRot s.rot.leave.1, s.rot.leave.2)

/-- LEAVE (R172). -/
def execLeave (dt : Nat) (phase : HostPhase) (s : State) : Host.Outcome State Fault Refusal :=
  .next ((s.advance dt).hostStep .leave phase fun s => s.closeCommand true State.presentLeave)

/-- REJOIN's judgement (R62, R173). -/
def State.presentRejoin (s : State) : State × Result :=
  if s.rot.station = .withdrawn then (s.setRot (s.rot.rejoin s.now), .ok) else (s, .wrongState)

/-- REJOIN (R173). -/
def execRejoin (dt : Nat) (phase : HostPhase) (s : State) : Host.Outcome State Fault Refusal :=
  .next ((s.advance dt).hostStep .rejoin phase fun s => s.closeCommand true State.presentRejoin)

/-- RESTART (R174). -/
def execRestart (dt : Nat) (phase : HostPhase) (s : State) : Host.Outcome State Fault Refusal :=
  .next ((s.advance dt).hostStep .restart phase fun s => s.closeCommand true fun s => (s.restart, .ok))

/-! ## NOP and UNKNOWN -/

/-- NOP (R163): no result is set. -/
def execNop (dt : Nat) (phase : HostPhase) (s : State) : Host.Outcome State Fault Refusal :=
  .next ((s.advance dt).hostStep .nop phase fun s => s.closeWith none)

/-- UNKNOWN_COMMAND (R158), in every station state. -/
def execUnknownCommand (dt : Nat) (phase : HostPhase) (s : State) : Host.Outcome State Fault Refusal :=
  .next ((s.advance dt).hostStep .unknown phase fun s => s.closeWith (some .unknownCommand))

end Sys2Proof.Machine
end

