-- ==== Sys2Proof/Machine/Line.lean ====
section
/-! DEFINITION. The commands of the line interface and the frame assembler: samples, start edges, characters delivered
and sent, mismatches, and the assembler's own instants. -/

namespace Sys2Proof.Machine

open Sys2Proof

/-! ## Samples and start edges -/

/-- The driver is sending, at instant `t`, the start cell of a character (R15). -/
def Driver.inStartCell (d : Driver) (t : Nat) : Bool :=
  d.cond == .driving && !d.sent && decide (d.charStart ≤ t ∧ t < d.charStart + Config.bitTime)

/-- START_EDGE (R7): in HUNTING, armed, the sample becomes sample 0; in every condition it is a dominant sample. The driven
indication is fixed here and cleared by a mismatch (assumption log 20). -/
def State.startEdge (s : State) : State :=
  if s.lineRuns = true then
    if s.rx.cond = .hunting ∧ s.rx.awaitRecessive = false then
      s.dominantSample.setRx
        { cond := .receiving, awaitRecessive := false, startInstant := s.now, driven := s.driver.inStartCell s.now,
          lows := [0] }
    else s.dominantSample
  else s

/-- The receiver at the first sample read recessive (R7, R9). -/
def Receiver.sawRecessive (r : Receiver) : Receiver :=
  { r with cond := if r.cond = .blocked then .hunting else r.cond, awaitRecessive := false }

/-- START_EDGE (R7). -/
def execStartEdge (dt : Nat) (s : State) : Host.Outcome State Fault Refusal := .next (s.advance dt).startEdge

/-- FIRST_RECESSIVE_SAMPLE (R9): a BLOCKED receiver returns to HUNTING, and one that awaited a recessive sample is armed. -/
def execFirstRecessiveSample (dt : Nat) (s : State) : Host.Outcome State Fault Refusal :=
  let s1 := s.advance dt
  .next (if s1.lineRuns = true then s1.setRx s1.rx.sawRecessive else s1)

/-- DOMINANT_SAMPLE (R10). -/
def execDominantSample (dt : Nat) (s : State) : Host.Outcome State Fault Refusal :=
  let s1 := s.advance dt
  .next (if s1.lineRuns = true then s1.dominantSample else s1)

/-! ## The receiver's characters -/

/-- The receiver after the character it was receiving, with its shift state empty (R7, R8, R9). -/
def Receiver.release (r : Receiver) (c : RxCond) : Receiver :=
  { r with cond := c, startInstant := 0, driven := false, lows := [] }

/-- The character in reception, as the bits taken give it (R8, R15). -/
def Receiver.char (r : Receiver) : RxChar :=
  { data := takenData r, edge := takenEdge r, faulty := takenFaulty r, start := r.startInstant, driven := r.driven }

/-- The stop bit is taken: the receiver returns to HUNTING or enters BLOCKED, and the character goes to the assembler,
unless the driver is FINISHING (R8, R9, R16). -/
def State.takeCharacter (s : State) (order : EndOrder) : State :=
  let s1 := s.setRx (s.rx.release (if takenFaulty s.rx = true then .blocked else .hunting))
  if s.driver.cond = .finishing then s1 else s1.deliver order s.rx.char

/-- CHARACTER_DELIVERED (R8), at the mid-bit of the stop cell of the character being received, its start confirmed. -/
def execCharacterDelivered (rotationFirst offerFirst : Bool) (s : State) : Host.Outcome State Fault Refusal :=
  .next
    (if s.lineRuns = true ∧ s.rx.cond = .receiving ∧ s.rx.confirmed = true then
      (s.runTo (s.rx.startInstant + Config.stopMid)).takeCharacter
        { rotationFirst := rotationFirst, offerFirst := offerFirst }
    else s)

/-- A frame in IN_FRAME is truncated at this instant (R25, R27). -/
def State.truncate (s : State) : State := (s.setAsm s.asm.damaged).damageNotice s.asm.startInstant

/-- A glitch found past the allowance of R25 truncates the frame that waited for it. -/
def State.glitchTruncation (s : State) : State :=
  if s.asm.cond = .inFrame ∧ s.asm.dueInstant + Config.truncationGrace ≤ s.now then s.truncate else s

/-- A glitch found past the window end, in the window, lets the rotation's window pass (R47). -/
def State.glitchWindow (s : State) (start : Nat) : State :=
  match s.rot.tracked with
  | some e =>
    if s.rot.station = .active ∧ s.rot.position = .window ∧ inWindow e start = true ∧
        e + Config.windowClose ≤ s.now then s.setRot (s.rot.passWindow s.now)
    else s
  | none => s

/-- A start bit taken recessive (R7), with the waits it ends (R25, R47, R95); `rotationFirst` says whether the rotation's
window passes before the watch closes. -/
def State.glitch (s : State) (rotationFirst : Bool) : State :=
  let start := s.rx.startInstant
  let s1 := (s.setRx (s.rx.release .hunting)).glitchTruncation
  if rotationFirst = true then (s1.glitchWindow start).watchPassed start else (s1.watchPassed start).glitchWindow start

/-- START_GLITCH (R7), at the mid-bit of the start cell, its start bit taken recessive. -/
def execStartGlitch (rotationFirst : Bool) (s : State) : Host.Outcome State Fault Refusal :=
  .next
    (if s.lineRuns = true ∧ s.rx.cond = .receiving ∧ s.rx.confirmed = false ∧
        s.now ≤ s.rx.startInstant + Config.startMid then
      (s.runTo (s.rx.startInstant + Config.startMid)).glitch rotationFirst
    else s)

/-! ## The assembler's own instants -/

/-- DISCARD_SETTLE (R28): once the quiet timer shows 4 T. DESIGN CHOICE, unsafe: the 4 T may pass inside a damaged frame that
goes on, across a byte FFh, and the assembler is IDLE in mid-frame then, where R28 discards the frame whole and R27 gives it
one damage notice at most (assumption log 37). -/
def execDiscardSettle (s : State) : Host.Outcome State Fault Refusal :=
  .next
    (if s.lineRuns = true ∧ s.asm.cond = .discarding then
      let s1 := s.advance (s.untilQuiet Config.settleGap)
      s1.setAsm { s1.asm with cond := .idle }
    else s)

/-- FRAME_TRUNCATION (R25): the due instant plus 2 T with no character being received. -/
def execFrameTruncation (s : State) : Host.Outcome State Fault Refusal :=
  .next
    (if s.lineRuns = true ∧ s.asm.cond = .inFrame ∧ s.rx.cond ≠ .receiving then
      (s.runTo (s.asm.dueInstant + Config.truncationGrace)).truncate
    else s)

/-! ## The driver's compares -/

/-- The clock at the driver's next start cell when the present stop cell has been compared already (R11). -/
def State.toNextStart (s : State) : State :=
  if s.driver.cond = .driving ∧ s.driver.sent = true then s.runTo (s.driver.charStart + Config.charTime) else s

/-- CHARACTER_SENT (R12): the stop cell of the character being driven has been compared and agrees. -/
def execCharacterSent (tap : Tap) (s : State) : Host.Outcome State Fault Refusal :=
  let s1 := s.toNextStart
  .next
    (if s1.driver.cond = .driving ∧ s1.driver.sent = false ∧ majority tap = .recessive ∧ s1.em.cond = .emitting then
      (s1.runTo (s1.driver.charStart + Config.stopMid)).charSent
    else s)

/-- A compare of a cell finds the level `sent` driven and the other level read (R12 to R14). -/
def Driver.mismatchAt (d : Driver) (cell : Nat) (tap : Tap) (sent : Level) : Bool :=
  d.cond == .driving && !d.sent && charLevel d.char cell == sent && majority tap != sent

/-- LOSS (R13): a compare that sent recessive and read dominant. -/
def execLoss (cell : Fin 11) (tap : Tap) (s : State) : Host.Outcome State Fault Refusal :=
  let s1 := s.toNextStart
  .next
    (if s1.driver.mismatchAt cell.val tap .recessive = true then
      (s1.runTo (s1.driver.charStart + Config.midBit cell.val)).mismatch .loss cell.val
    else s)

/-- LINE_FAULT (R14): a compare that sent dominant and read recessive. -/
def execLineFault (cell : Fin 11) (tap : Tap) (s : State) : Host.Outcome State Fault Refusal :=
  let s1 := s.toNextStart
  .next
    (if s1.driver.mismatchAt cell.val tap .dominant = true then
      (s1.runTo (s1.driver.charStart + Config.midBit cell.val)).mismatch .lineFault cell.val
    else s)

/-- FINISHING ends: LTX released, receiver and quiet timer reset, the emitter back in IDLE, no report (R16, R37). -/
def State.endFinishing (s : State) : State :=
  ((s.setDriver Driver.init).resetReceiver).setEm Emitter.init

/-- The instant at which FINISHING ends: the end of the stop cell, or the mid-bit of a cell compared in disagreement;
none when the cell given agrees or has been compared already (R16). -/
def Driver.finishingInstant (d : Driver) (mismatch : Option (Fin 11 × Tap)) : Option Nat :=
  match mismatch with
  | none => some (d.charStart + Config.charTime)
  | some (cell, tap) =>
    if d.sent = false ∧ majority tap ≠ charLevel d.char cell.val then
      some (d.charStart + Config.midBit cell.val)
    else none

/-- FINISHING_END (R16). -/
def execFinishingEnd (mismatch : Option (Fin 11 × Tap)) (s : State) : Host.Outcome State Fault Refusal :=
  .next
    (if s.driver.cond = .finishing then
      match s.driver.finishingInstant mismatch with
      | some t => (s.runTo t).endFinishing
      | none => s
    else s)

end Sys2Proof.Machine
end

