-- ==== Sys2Proof/Machine/Turns.lean ====
section
/-! DEFINITION. The commands of the device's own timing: slot starts, rests and the ends and starts of answer windows. -/

namespace Sys2Proof.Machine

open Sys2Proof

/-- Slot `i` begins: the slot index becomes `i`, and a slot of S makes the own-turn test (R39, R52). -/
def State.slotStart (s : State) (i : Nat) : State :=
  let s1 := s.setRot (s.rot.takeSlot i)
  if s.rot.ownsSlot s.straps.highest s.straps.own i = true then s1.ownTurn else s1

/-- SLOT_START (R39): the next slot start of the rotation, in ACTIVE with position SLOT. -/
def execSlotStart (s : State) : Host.Outcome State Fault Refusal :=
  let i := s.rot.upcomingSlot s.now
  .next
    (if s.rot.station = .active ∧ s.rot.position = .slot ∧ i ≤ s.straps.highest + 2 then
      (s.runTo (s.rot.baseTime + Config.slotTime * i)).slotStart i
    else s)

/-- The test for a rest at the end of the second rest slot (R40). -/
def State.restTest (s : State) : State :=
  if Config.restQuiet ≤ s.quiet.elapsed then s.setRot (s.rot.rest s.now)
  else s.setRot { s.rot with position := .restDue }

/-- SECOND_REST_SLOT_END (R40), at base time + 24(H+3) T. -/
def execSecondRestSlotEnd (s : State) : Host.Outcome State Fault Refusal :=
  .next
    (if s.rot.station = .active ∧ s.rot.position = .slot then
      (s.runTo (s.rot.baseTime + Config.slotTime * (s.straps.highest + 3))).restTest
    else s)

/-- REST_DUE_REST (R40): in REST_DUE, the first sample at which the quiet timer shows 48 T. -/
def execRestDueRest (s : State) : Host.Outcome State Fault Refusal :=
  .next
    (if s.lineRuns = true ∧ s.rot.station = .active ∧ s.rot.position = .restDue then
      let s1 := s.advance (s.untilQuiet Config.restQuiet)
      s1.setRot (s1.rot.rest s1.now)
    else s)

/-- Samples still to pass before a station in LISTEN reaches a rest: until the quiet timer shows Q and Q has passed
since the LISTEN entry instant (R41). -/
def State.untilListenRest (s : State) : Nat :=
  let q := Config.quietMeasure s.straps.highest
  max (s.untilQuiet q) (s.rot.listenEntry + q - s.now)

/-- QUIET_MEASUREMENT_REST (R41). -/
def execQuietMeasurementRest (s : State) : Host.Outcome State Fault Refusal :=
  .next
    (if s.lineRuns = true ∧ s.rot.station = .listen then
      let s1 := s.advance s.untilListenRest
      s1.setRot (s1.rot.rest s1.now)
    else s)

/-- The receiver is RECEIVING a character whose start instant lies in the window of a DATA that ended at `e` (R47,
R95). -/
def Receiver.inWindowChar (r : Receiver) (e : Nat) : Bool := r.cond == .receiving && inWindow e r.startInstant

/-- ROTATION_WINDOW_END (R47), at E + 28 T in position WINDOW. DESIGN CHOICE, unsafe: a character that the window waits for
and that is delivered with no notice leaves the position WINDOW until another ROTATION_WINDOW_END (assumption log 35). -/
def execRotationWindowEnd (s : State) : Host.Outcome State Fault Refusal :=
  .next
    (match s.rot.tracked with
    | some e =>
      if s.rot.station = .active ∧ s.rot.position = .window then
        let s1 := s.runTo (e + Config.windowClose)
        if s1.rx.inWindowChar e = true then s1 else s1.setRot (s1.rot.passWindow s1.now)
      else s
    | none => s)

/-- The ANSWER requested of the emitter (R33, R90). -/
def State.startAnswer (s : State) (p : PendingAnswer) : State :=
  (s.setPend (some { p with phase := .emitting })).beginFrame .answer
    (answerHeader s.straps.own p.seq p.sender p.code) [] 0

/-- The window start of a DUE pending answer: the ANSWER begins when the line is idle and the emitter takes the request,
and the answer activity ends not started otherwise (R90, R91). -/
def State.answerWindow (s : State) (p : PendingAnswer) : State :=
  if s.now = p.windowStart ∧ s.lineIdle = true ∧ s.em.cond = .idle then s.startAnswer p else s.endAnswer

/-- ANSWER_WINDOW_START (R90). -/
def execAnswerWindowStart (s : State) : Host.Outcome State Fault Refusal :=
  .next
    (match s.pend with
    | some p => if p.phase = .due then (s.runTo p.windowStart).answerWindow p else s
    | none => s)

/-- WATCH_WINDOW_END (R95), at E + 28 T with the watch still OPEN. -/
def execWatchWindowEnd (s : State) : Host.Outcome State Fault Refusal :=
  .next
    (match s.watch with
    | .opened w e =>
      let s1 := s.runTo (e + Config.windowClose)
      if s1.rx.inWindowChar e = true then s1 else s1.closeWatch w .noAnswer
    | .holding _ _ _ => s
    | .noted _ => s
    | .shut => s)

end Sys2Proof.Machine
end

