-- ==== Sys2Proof/Machine/Dispatch.lean ====
section
/-! DEFINITION. The dispatch: one arm per command, each one direct call of its meaning. -/

namespace Sys2Proof.Machine

def exec (i : Instr) (s : State) : Host.Outcome State Fault Refusal :=
  match i with
  | .pinReset dt => Sys2Proof.Machine.execPinReset dt s
  | .rstnRelease dt sn hn rate csnLow => Sys2Proof.Machine.execRstnRelease dt sn hn rate csnLow s
  | .characterDelivered rotationFirst offerFirst => Sys2Proof.Machine.execCharacterDelivered rotationFirst offerFirst s
  | .startGlitch rotationFirst => Sys2Proof.Machine.execStartGlitch rotationFirst s
  | .discardSettle => Sys2Proof.Machine.execDiscardSettle s
  | .frameTruncation => Sys2Proof.Machine.execFrameTruncation s
  | .characterSent tap => Sys2Proof.Machine.execCharacterSent tap s
  | .loss cell tap => Sys2Proof.Machine.execLoss cell tap s
  | .lineFault cell tap => Sys2Proof.Machine.execLineFault cell tap s
  | .finishingEnd mismatch => Sys2Proof.Machine.execFinishingEnd mismatch s
  | .slotStart => Sys2Proof.Machine.execSlotStart s
  | .secondRestSlotEnd => Sys2Proof.Machine.execSecondRestSlotEnd s
  | .restDueRest => Sys2Proof.Machine.execRestDueRest s
  | .quietMeasurementRest => Sys2Proof.Machine.execQuietMeasurementRest s
  | .rotationWindowEnd => Sys2Proof.Machine.execRotationWindowEnd s
  | .answerWindowStart => Sys2Proof.Machine.execAnswerWindowStart s
  | .watchWindowEnd => Sys2Proof.Machine.execWatchWindowEnd s
  | .transactionOpen dt => Sys2Proof.Machine.execTransactionOpen dt s
  | .commandDecode dt step => Sys2Proof.Machine.execCommandDecode dt step s
  | .postPayloadByte dt b => Sys2Proof.Machine.execPostPayloadByte dt b s
  | .voidTransaction dt => Sys2Proof.Machine.execVoidTransaction dt s
  | .barredCsnRise dt => Sys2Proof.Machine.execBarredCsnRise dt s
  | .nop dt phase => Sys2Proof.Machine.execNop dt phase s
  | .post dt phase => Sys2Proof.Machine.execPost dt phase s
  | .take dt phase => Sys2Proof.Machine.execTake dt phase s
  | .reap dt phase => Sys2Proof.Machine.execReap dt phase s
  | .status dt phase => Sys2Proof.Machine.execStatus dt phase s
  | .peer dt phase => Sys2Proof.Machine.execPeer dt phase s
  | .cancel dt phase => Sys2Proof.Machine.execCancel dt phase s
  | .flush dt phase => Sys2Proof.Machine.execFlush dt phase s
  | .leave dt phase => Sys2Proof.Machine.execLeave dt phase s
  | .rejoin dt phase => Sys2Proof.Machine.execRejoin dt phase s
  | .restart dt phase => Sys2Proof.Machine.execRestart dt phase s
  | .unknownCommand dt phase => Sys2Proof.Machine.execUnknownCommand dt phase s
  | .startEdge dt => Sys2Proof.Machine.execStartEdge dt s
  | .firstRecessiveSample dt => Sys2Proof.Machine.execFirstRecessiveSample dt s
  | .dominantSample dt => Sys2Proof.Machine.execDominantSample dt s

end Sys2Proof.Machine
end

