-- ==== Sys2Proof/Safety.lean ====
section
/-! DEFINITION. What a safe run keeps: the laws of the device as predicates on one state, the bytes of a frame as both
ends of a line see them, and the terms in which the statements speak. -/

namespace Sys2Proof.Machine

open Sys2Proof

/-! ## Laws of the device, on one state -/

/-- The quiet timer shows the samples passed after the last dominant one, or since the reset, held at 65535, while the line
interface runs, and 0 while it does not (R10, R2, R3). -/
def State.quietLaw (s : State) : Prop :=
  (s.lineRuns = true →
    s.quiet.lastDominant ≤ s.now ∧ s.quiet.elapsed = min 65535 (s.now - s.quiet.since) ∧
      (s.quiet.since = s.quiet.lastDominant + 1 ∨ s.quiet.since = s.quiet.lastDominant)) ∧
  (s.lineRuns = false → s.quiet.elapsed = 0)

/-- The laws of the rotation controller: anchored exactly while ACTIVE, UNPLACED exactly outside ACTIVE, B in 0 to H (R38);
the fault count in 0 to 8, and 8 only in WITHDRAWN (R57); leaving-pending only in LISTEN or ACTIVE with one of the
station's own activities in progress (R60, R61). -/
def State.rotationLaw (s : State) : Prop :=
  (s.rot.anchored = true ↔ s.rot.station = .active) ∧
  (s.rot.position = .unplaced ↔ s.rot.station ≠ .active) ∧
  s.rot.base ≤ s.straps.highest ∧
  s.rot.faultCount ≤ 8 ∧
  (s.rot.faultCount = 8 → s.rot.station = .withdrawn) ∧
  (s.rot.leaving = true →
    (s.rot.station = .listen ∨ s.rot.station = .active) ∧
    (s.rot.ownFrame = true ∨ s.rot.answerWatch = true ∨ s.rot.answer = true))

/-- The limits of the queues: transmit entries and completion records share 16 places (R107), and the receive queue holds
at most 24 records (R141). -/
def State.queueLimits (s : State) : Prop :=
  s.txq.length + s.compq.length ≤ 16 ∧ s.rxq.records.length ≤ 24

/-- The counts keep to their ranges: the damaged, loss and rest counts and the quiet timer to 65535 (R63, R10), the
cast-loss tally and the casts_lost_before of every record to 255 (R144, R145). -/
def State.countersLaw (s : State) : Prop :=
  s.rot.damaged ≤ 65535 ∧ s.rot.losses ≤ 65535 ∧ s.rot.rests ≤ 65535 ∧ s.quiet.elapsed ≤ 65535 ∧
  s.rxq.tally ≤ 255 ∧ ∀ r ∈ s.rxq.records, r.castsLost ≤ 255

/-- The numbers of the blocks with the given holder, ascending. -/
def Pool.heldBy (p : Pool) (h : Holder) : List Nat :=
  (List.range 64).filter fun b => p.holders[b]? == some h

/-- Each of the 64 blocks has one holder, and an entry or record holds exactly the blocks it names, in ascending order and
as many as its length needs (R129, R130, R103, R140). -/
def State.poolLaw (s : State) : Prop :=
  s.pool.holders.length = 64 ∧
  (s.txq.map (·.ref)).Nodup ∧ (s.rxq.records.map (·.ref)).Nodup ∧
  (∀ e ∈ s.txq, e.ref < s.nextRef ∧ e.blocks = s.pool.heldBy (.transmit e.ref) ∧
    e.blocks.length = Config.blocksFor e.length) ∧
  (∀ r ∈ s.rxq.records, r.ref < s.nextRef ∧ r.blocks = s.pool.heldBy (.receive r.ref) ∧
    r.blocks.length = Config.blocksFor r.length) ∧
  (∀ ref, .transmit ref ∈ s.pool.holders → ∃ e ∈ s.txq, e.ref = ref) ∧
  (∀ ref, .receive ref ∈ s.pool.holders → ∃ r ∈ s.rxq.records, r.ref = ref)

/-- The free blocks, the blocks held by transmit entries and the blocks held by receive records, counted together
(R129). -/
def State.blocksAccounted (s : State) : Nat :=
  s.pool.freeCount + (s.txq.map (·.blocks.length)).sum + (s.rxq.records.map (·.blocks.length)).sum

/-- What the answer watch names, in every condition but SHUT (section 5.1). -/
def Watch.watched (w : Watch) : Option Watched :=
  match w with
  | .shut => none
  | .noted x => some x
  | .opened x _ => some x
  | .holding x _ _ => some x

/-- The law of selection: every entry behind the head is WAITING, so at most the head is OUTSTANDING or IN_FLIGHT (R108);
a deferred cancel only on an entry IN_FLIGHT (R122); no CAST entry OUTSTANDING (R103); and the entry the answer watch
names is no CAST (R93). -/
def State.headLaw (s : State) : Prop :=
  (s.txq.map (·.ref)).Nodup ∧
  (∀ e ∈ s.txq, e.ref < s.nextRef ∧ e.returnState ≠ .inFlight ∧ (e.cancelPending = true → e.state = .inFlight) ∧
    (e.isCast = true → e.state ≠ .outstanding ∧ e.returnState ≠ .outstanding)) ∧
  (∀ e ∈ s.txq.tail, e.state = .waiting ∧ e.returnState = .waiting) ∧
  (∀ w, s.watch.watched = some w → w.entry < s.nextRef ∧ ∀ e ∈ s.txq, e.ref = w.entry → e.isCast = false)

/-- The law of the peer table: rx_last_fresh is false while rx_expect is UNKNOWN (R77, note 2); an outstanding reference
names a DATA entry to that peer that is OUTSTANDING or IN_FLIGHT, and each such entry is named by its peer (R74); and an
entry WAITING would return to WAITING (assumption log 33). -/
def State.peerLaw (s : State) : Prop :=
  (∀ p ∈ s.peers, p.rxExpect = none → p.rxLastFresh = false) ∧
  (∀ (k : Nat) (p : PeerEntry) (ref : Nat), s.peers[k]? = some p → p.outstanding = some ref →
    ∃ e ∈ s.txq, e.ref = ref ∧ e.dest = k ∧ e.isCast = false ∧ (e.state = .outstanding ∨ e.state = .inFlight)) ∧
  (∀ e ∈ s.txq, e.isCast = false → e.state = .outstanding ∨ e.state = .inFlight → ∀ p, s.peers[e.dest]? = some p →
    p.outstanding = some e.ref) ∧
  (∀ e ∈ s.txq, e.state = .waiting → e.returnState = .waiting)

/-- The block contents are in canonical form: addresses strictly rising, no listed cell 0 (assumption log 5). -/
def State.cellsLaw (s : State) : Prop := cellsWf s.pool.cells

/-! ## The bytes of a frame -/

/-- The data bytes of a whole frame: header, payload, CRC high byte, CRC low byte (R18, R20). -/
def frameBytes (header payload : List Byte) : List Byte :=
  header ++ payload ++ [crcHigh (crcOf (header ++ payload)), crcLow (crcOf (header ++ payload))]

/-- The characters of a frame as a receiver delivers them when they come back to back from `start`: edge bit 1 on the
first alone, none faulty, each `driven` or not (R5, R8, R18). -/
def receivedChars (bytes : List Byte) (start : Nat) (driven : Bool) : List RxChar :=
  bytes.mapIdx fun k b =>
    { data := b, edge := decide (k = 0), faulty := false, start := start + 176 * k, driven := driven }

/-- An assembler of station `own` on a line with highest station `h` takes characters, each at the mid-bit of its stop
cell, and gives its last notice. -/
def assembleAll (own h : Nat) (a : Assembler) (n : AsmNotice) : List RxChar → Assembler × AsmNotice
  | [] => (a, n)
  | c :: rest =>
    let out := a.deliver own h (c.start + 169) c
    assembleAll own h out.1 out.2 rest

/-- The characters an emitter places from index `k` on, `n` of them, each once its CRC generator covers those before it
(R34). -/
def placedChars (em : Emitter) (cells : List Host.Cell) (k : Nat) : Nat → List LineChar
  | 0 => []
  | n + 1 => em.lineChar cells k :: placedChars (em.cover cells k) cells (k + 1) n

/-- The payload held in blocks, byte by byte (R130). -/
def heldPayload (cells : List Host.Cell) (blocks : List Nat) (len : Nat) : List Byte :=
  (List.range len).map (payloadByte cells blocks)

/-! ## The host rows -/

/-- The row of a host transaction after its byte 0, by the command that byte 0 selected (section 9.3). -/
def hostRow (c : HostCommand) (dt : Nat) (phase : HostPhase) : Instr :=
  match c with
  | .nop => .nop dt phase
  | .post => .post dt phase
  | .take => .take dt phase
  | .reap => .reap dt phase
  | .status => .status dt phase
  | .peer => .peer dt phase
  | .cancel => .cancel dt phase
  | .flush => .flush dt phase
  | .leave => .leave dt phase
  | .rejoin => .rejoin dt phase
  | .restart => .restart dt phase
  | .unknown => .unknownCommand dt phase

/-- The state in which a transaction of command `c` has closed with result `r` and nothing else has happened. -/
def State.closedWith (s : State) (r : Result) : State :=
  { s with port := { s.port with state := .idle, bitsIn := [], sckHigh := false, lastResult := r } }

end Sys2Proof.Machine
end

