-- ==== Sys2Proof/Certificates/Slice0/Obligations.lean ====
section
/-! DEFINITION. The statements for the provers. Each docstring names the rules of spec/ that it formalises, or the
entry of the assumption log that it rests on. `s.advance d` is the state after `d` samples and `s.runTo t` the state with
the clock run on to instant `t` (assumption log 1); what they change is PassingSamplesMoveOnlyTheClocks. Instants and
lengths of time are in sixteenths of T: 16 is one T, 64 is 4 T, 384 is 24 T, 448 is 28 T, 768 is 48 T. -/

open Sys2Proof Sys2Proof.Machine

/-! ## Terms of the statements -/

/-- Character k + 1 of the frame being emitted, k the emitter's index (R34): header, payload from the blocks, CRC high byte,
CRC low byte, edge bit 0. -/
def nextCharOf (s : State) : LineChar :=
  { data :=
      if s.em.index + 1 < 3 then s.em.header.getD (s.em.index + 1) 0
      else if s.em.index + 3 < s.em.count then payloadByte s.pool.cells s.em.blocks (s.em.index - 2)
      else if s.em.index + 3 = s.em.count then crcHigh s.em.crc
      else crcLow s.em.crc
    edge := false }

/-- The emitter once that character is placed: its byte is taken into the CRC unless it is a CRC character (R20, R34). -/
def coversNext (s : State) : Emitter :=
  { s.em with crc := if s.em.index + 3 < s.em.count then crcByte s.em.crc (nextCharOf s).data else s.em.crc }

/-- The receiver after the character it was receiving: the shift state empty (R7, R8). -/
def rxAfter (s : State) (c : RxCond) : Receiver :=
  { s.rx with cond := c, startInstant := 0, driven := false, lows := [] }

/-- A character with its start confirmed is being received, the straps valid, no RESTART pending in the driver (R8, R16). -/
def takesCharacter (s : State) : Prop :=
  s.rstLow = false ∧ s.straps.valid = true ∧ s.rx.cond = .receiving ∧ s.rx.confirmed = true ∧
  s.driver.cond ≠ .finishing

/-- The rotation controller as a station withdraws by request (R61). -/
def withdrawn (r : Rotation) : Rotation :=
  { r with
    station := .withdrawn, cause := .request, anchored := false, position := .unplaced, tracked := none,
    marker := false, leaving := false, changeFlag := true, setSinceSnapshot := true }

/-- The rotation controller once an activity has ended: withdrawn when leaving-pending is set, no activity is left and the
station is in LISTEN or ACTIVE (R61). -/
def afterActivity (r : Rotation) : Rotation :=
  if r.leaving = true ∧ r.ownFrame = false ∧ r.answerWatch = false ∧ r.answer = false ∧
    (r.station = .listen ∨ r.station = .active) then withdrawn r
  else r

/-- A notice for the frame that began at `start` is the watch's own: the frame it holds, or in OPEN a frame of its window
(R94, R96). -/
def watchTakes (w : Watch) (start : Nat) : Prop :=
  (∃ x e, w = .opened x e ∧ e < start ∧ start < e + 448) ∨ ∃ x e h, w = .holding x e h ∧ h.start = start

/-- The character of the window that began at `start` is being received, or was. -/
abbrev inWindowOf (e start : Nat) : Prop := e < start ∧ start < e + 448

/-- What a damage notice does to the rotation controller (R50, R51): the damaged count rises, an ACTIVE station enters
LISTEN with B kept, and a station in LISTEN drops its window. -/
def damageTaken (r : Rotation) (t : Nat) : Rotation :=
  match r.station with
  | .active => { r with
      damaged := min 65535 (r.damaged + 1), station := .listen, anchored := false, position := .unplaced,
      tracked := none, marker := false, listenEntry := t }
  | .listen => { r with damaged := min 65535 (r.damaged + 1), tracked := none }
  | .withdrawn => { r with damaged := min 65535 (r.damaged + 1) }
  | .strapFault => r

/-- What a glitch found at `T`, of the character that began at `start`, does to the rotation controller (R47): in position
WINDOW with the window's end past and the character one of the window, the window has passed quiet, and the position becomes
SLOT with the slot index of the slot of the base that contains `T`. -/
def windowPassed (r : Rotation) (start T : Nat) : Rotation :=
  match r.tracked with
  | some e =>
    if r.station = .active ∧ r.position = .window ∧ inWindowOf e start ∧ e + 448 ≤ T then
      { r with
        position := .slot, tracked := none, marker := false, nextSlot := 0, slotIndex := (T - r.baseTime) / 384 }
    else r
  | none => r

/-- An OPEN watch past its window's end at `T` waited for the character that began at `start` (R95). -/
def watchWaited (w : Watch) (start T : Nat) : Prop :=
  ∃ x e, w = .opened x e ∧ inWindowOf e start ∧ e + 448 ≤ T

/-- The state from which the driver's next compare counts: with the stop cell compared already the clock stands at its end,
where the character presented begins or the driver goes IDLE (R11, R12). -/
def atCompare (s : State) : State :=
  if s.driver.sent = true then s.runTo (s.driver.charStart + 176) else s

/-! ## The step, the clock and the queue of commands -/

/-- A step takes the command at the front and runs it on the state with the queue's rest; with nothing waiting the block
idles (assumption log 3).
No command touches the queue of commands that wait. -/
def Obligations.StepRunsTheFrontCommand : Prop :=
  (∀ (c : Instr) (rest : List Instr) (s : State),
    step { s with pending := c :: rest } = exec c { s with pending := rest } ∧
    step { s with pending := [] } = .next { s with pending := [] }) ∧
  (∀ (c : Instr) (s t : State), exec c s = .next t → t.pending = s.pending)

/-- Samples that pass move the clock, the quiet timer while the line interface runs, by one for each but a sample of the present
instant that was read dominant (R10), a driver whose stop cell is
compared already across the end of that cell into the character presented (R11), and, when the stop cell of a character
begins with a further character in the frame, present that one and take it into the CRC (R34); nothing else (assumption
log 1). -/
def Obligations.PassingSamplesMoveOnlyTheClocks : Prop :=
  ∀ (s : State) (d : Nat) (more ended stopCell : Prop),
    (more ↔ s.em.cond = .emitting ∧ s.em.index + 1 < s.em.count) →
    (ended ↔ s.driver.cond = .driving ∧ s.driver.sent = true ∧ s.driver.charStart + 176 ≤ s.now + d) →
    (stopCell ↔ more ∧ s.driver.cond = .driving ∧ s.driver.sent = false ∧ s.driver.next = none ∧
      s.driver.charStart + 160 ≤ s.now + d) →
    (s.advance d).now = s.now + d ∧
    (s.rstLow = false ∧ s.straps.valid = true → (s.advance d).quiet =
      { elapsed := min 65535 (s.quiet.elapsed + (s.now + d - max s.now s.quiet.since)),
        lastDominant := s.quiet.lastDominant, since := s.quiet.since }) ∧
    (s.rstLow = true ∨ s.straps.valid = false → (s.advance d).quiet = s.quiet) ∧
    (ended → s.driver.next = none → (s.advance d).driver.cond = .idle ∧ (s.advance d).em = s.em) ∧
    (∀ c, ended → s.driver.next = some c → ∃ n,
      (s.advance d).driver =
        { cond := .driving, char := c, charStart := s.driver.charStart + 176, sent := false, next := n } ∧
      (more ∧ s.driver.charStart + 336 ≤ s.now + d → n = some (nextCharOf s) ∧ (s.advance d).em = coversNext s) ∧
      (¬ (more ∧ s.driver.charStart + 336 ≤ s.now + d) → n = none ∧ (s.advance d).em = s.em)) ∧
    (stopCell →
      (s.advance d).driver = { s.driver with next := some (nextCharOf s) } ∧ (s.advance d).em = coversNext s) ∧
    (¬ ended → ¬ stopCell → (s.advance d).driver = s.driver ∧ (s.advance d).em = s.em) ∧
    s.advance d =
      { s with
        now := (s.advance d).now, quiet := (s.advance d).quiet, driver := (s.advance d).driver,
        em := (s.advance d).em } ∧
    ∀ i, s.runTo i = s.advance (i - s.now)

/-! ## Resets and straps -/

/-- PIN_RESET puts every block at its pin-reset values at that instant, releases LTX, lets ATTN fall and MISO float, and
leaves the contents of every block of the pool as they were (the reset tables of R17, R37, R65, R67, R84, R128, R139,
R153, R178, and R21).
RSTN_RELEASE samples the straps, judges them (R2), enters LISTEN, or STRAP_FAULT with the change flag set, and puts the
port in IDLE, or in BARRED with CSn low (R159, R177); every other block holds its pin-reset values (R65, R17).
The model's choices here: the strap latch while RSTn is low (assumption log 10, DESIGN CHOICE); the last-dominant and
LISTEN entry instants while RSTn is low, and the values in the items that the tables call empty (assumption log 16, DESIGN
CHOICE); the LISTEN entry instant in STRAP_FAULT (assumption log 26, DESIGN CHOICE). -/
def Obligations.PinResetAndRelease : Prop :=
  (∀ (dt : Nat) (s : State), ∃ t, exec (.pinReset dt) s = .next t ∧
    t = { State.reset with
          now := s.now + dt
          quiet := { elapsed := 0, lastDominant := s.now + dt, since := s.now + dt }
          rot := { State.reset.rot with listenEntry := s.now + dt }
          pool := { holders := List.replicate 64 .free, cells := s.pool.cells }
          pending := s.pending } ∧
    t.ltxLow = false ∧ t.attn = false ∧ t.misoDriven = false) ∧
  (∀ (dt : Nat) (sn hn : BitVec 5) (rate : BitVec 2) (csnLow : Bool) (s : State), s.rstLow = true →
    ∃ t, exec (.rstnRelease dt sn hn rate csnLow) s = .next t ∧
      t.straps.own = sn.toNat ∧ t.straps.highest = hn.toNat ∧ t.straps.rate = rate.toNat ∧
      (t.straps.valid = true ↔ 1 ≤ hn.toNat ∧ hn.toNat ≤ 30 ∧ sn.toNat ≤ hn.toNat) ∧
      (t.straps.valid = true → t.rot = { State.reset.rot with listenEntry := s.now + dt }) ∧
      (t.straps.valid = false →
        t.rot = { State.reset.rot with
          station := .strapFault, changeFlag := true, setSinceSnapshot := true, listenEntry := s.now + dt }) ∧
      (t.attn = true ↔ t.straps.valid = false) ∧
      t = { State.reset with
            now := s.now + dt
            rstLow := false
            straps := t.straps
            quiet := { elapsed := 0, lastDominant := s.now + dt, since := s.now + dt }
            rot := t.rot
            port := { State.reset.port with state := if csnLow = true then .barred else .idle }
            pool := { holders := List.replicate 64 .free, cells := s.pool.cells }
            pending := s.pending })

/-- Every law of the device that a step keeps holds in the state at reset. Some hold there by the model's choices: the station
reads LISTEN while RSTn is low (assumption log 4, DESIGN CHOICE), the pool lists no cell, an unwritten one reading 0
(assumption log 5, DESIGN CHOICE), the strap latch holds 0 (assumption log 10, DESIGN CHOICE), and the last-dominant instant is
the reset instant (assumption log 16, DESIGN CHOICE). -/
def Obligations.LawsHoldAtReset : Prop :=
  State.reset.quietLaw ∧ State.reset.rotationLaw ∧ State.reset.queueLimits ∧ State.reset.countersLaw ∧
    State.reset.poolLaw ∧ State.reset.headLaw ∧ State.reset.peerLaw ∧ State.reset.cellsLaw

/-! ## Samples -/

/-- DOMINANT_SAMPLE sets the elapsed quiet to 0 and records the sample's instant while the line interface runs, and a
receiver that is RECEIVING takes it as sample k of the character, k counted from the start instant; while the line
interface does not run, only the clock moves (R6, R10, R2, R3).
FIRST_RECESSIVE_SAMPLE returns a BLOCKED receiver to HUNTING and arms one that awaits a recessive sample (R9, R7).
Bit n of the character, fixed at its mid-bit 16n + 9, is 0 when two at least of samples 16n + 7 to 16n + 9 were dominant
(R6): bits 1 to 8 are the data, least significant first, bit 9 the edge bit, and bit 10, dominant, a framing fault (R5,
R8). That samples not reported are recessive is the model's form of the shift state (assumption logs 7 and 19). At a later
instant the timer shows the samples after this one and before that instant, as in R90's reading and not as in section 10.2's
example: assumption log 27 (DESIGN CHOICE). -/
def Obligations.SamplesReachTheReceiver : Prop :=
  (∀ (dt : Nat) (s : State),
    exec (.dominantSample dt) s =
      .next (if s.rstLow = false ∧ s.straps.valid = true then
        { s.advance dt with
          quiet := { elapsed := 0, lastDominant := s.now + dt, since := s.now + dt + 1 }
          rx :=
            if s.rx.cond = .receiving then { s.rx with lows := s.rx.lows ++ [s.now + dt - s.rx.startInstant] }
            else s.rx }
      else s.advance dt)) ∧
  (∀ (dt i : Nat) (s t : State), s.rstLow = false → s.straps.valid = true → exec (.dominantSample dt) s = .next t →
    (t.runTo i).quiet.elapsed = min 65535 (i - (s.now + dt + 1))) ∧
  (∀ (dt : Nat) (s : State), s.rstLow = false → s.straps.valid = true →
    exec (.firstRecessiveSample dt) s =
      .next { s.advance dt with
        rx := { s.rx with
          cond := if s.rx.cond = .blocked then .hunting else s.rx.cond, awaitRecessive := false } }) ∧
  (∀ (r : Receiver),
    (∀ n, r.bit n = false ↔
      16 * n + 7 ∈ r.lows ∧ 16 * n + 8 ∈ r.lows ∨ 16 * n + 7 ∈ r.lows ∧ 16 * n + 9 ∈ r.lows ∨
        16 * n + 8 ∈ r.lows ∧ 16 * n + 9 ∈ r.lows) ∧
    (∀ i, i < 8 → (takenData r).getLsbD i = r.bit (i + 1)) ∧ takenEdge r = r.bit 9 ∧
    (takenFaulty r = true ↔ r.bit 10 = false) ∧
    (∀ t k, k ≤ 11 → (∀ n, n < 11 → (r.startInstant + 16 * n + 9 ≤ t ↔ n < k)) →
      r.bitsTaken t = (List.range k).map r.bit))

/-- START_EDGE in HUNTING, once a recessive sample has been seen, makes the sample the start instant of a character and its
sample 0, and the receiver RECEIVING; in any other condition it starts no character. It is a dominant sample in each case
(R6, R7, R10). That the driven indication is fixed at the start edge, by its falling in a start cell that the driver sends,
is the model's reading of R15, which asks for agreement of every cell (assumption log 20, DEDUCED). -/
def Obligations.StartEdgeResult : Prop :=
  ∀ (dt : Nat) (s : State), s.rstLow = false → s.straps.valid = true →
    ∃ t, exec (.startEdge dt) s = .next t ∧
      (s.rx.cond = .hunting ∧ s.rx.awaitRecessive = false →
        t.rx.cond = .receiving ∧ t.rx.awaitRecessive = false ∧ t.rx.startInstant = s.now + dt ∧ t.rx.lows = [0] ∧
        (t.rx.driven = true ↔
          (s.advance dt).driver.cond = .driving ∧ (s.advance dt).driver.sent = false ∧
          (s.advance dt).driver.charStart ≤ s.now + dt ∧ s.now + dt < (s.advance dt).driver.charStart + 16)) ∧
      (¬ (s.rx.cond = .hunting ∧ s.rx.awaitRecessive = false) →
        t.rx =
          if s.rx.cond = .receiving then { s.rx with lows := s.rx.lows ++ [s.now + dt - s.rx.startInstant] }
          else s.rx) ∧
      t = { s.advance dt with
        quiet := { elapsed := 0, lastDominant := s.now + dt, since := s.now + dt + 1 }, rx := t.rx }

/-! ## Characters received -/

/-- START_GLITCH, the start bit taken recessive, returns the receiver to HUNTING at the mid-bit of the start cell and
delivers nothing (R7). It ends the waits for the character. A frame whose due instant plus 2 T has passed is truncated, which
is damage (R25, R27, R50). A window of the rotation past its end passes with the slot index of that instant (R47). A watch
past its window end, or one that the damage takes, closes with no answer, its activity ends, and the watched entry takes the
result (R95, R96, R97); with leaving-pending set and no other activity the station withdraws (R61). Where window and watch
both waited, as in the DATA's own sender, the operand says which block takes the glitch first. Nothing else changes. That a
truncation reaches the rotation controller before the watch's report is the model's order (assumption log 14, DESIGN
CHOICE). -/
def Obligations.StartGlitchResult : Prop :=
  ∀ (rotationFirst : Bool) (s : State) (T : Nat) (cut : Prop) (a : Assembler) (r : Rotation), s.rstLow = false →
    s.straps.valid = true → s.rx.cond = .receiving → s.rx.bit 0 = true → T = s.rx.startInstant + 9 → s.now ≤ T →
    (cut ↔ s.asm.cond = .inFrame ∧ s.asm.dueInstant + 32 ≤ T) →
    (cut → r = damageTaken s.rot T ∧
      a = { s.asm with cond := .discarding, buffer := [], count := 0, expected := none, crc := 0xFFFF }) →
    (¬ cut → r = s.rot ∧ a = s.asm) →
    (∀ w, s.watch.watched = some w →
      cut ∧ watchTakes s.watch s.asm.startInstant ∨ watchWaited s.watch s.rx.startInstant T →
      exec (.startGlitch rotationFirst) s = .next
        { (s.runTo T).applyWatchResult w.entry .noAnswer with
          rx := rxAfter s .hunting, asm := a, watch := .shut
          rot :=
            if rotationFirst = true then
              afterActivity { windowPassed r s.rx.startInstant T with answerWatch := false }
            else windowPassed (afterActivity { r with answerWatch := false }) s.rx.startInstant T }) ∧
    (¬ (cut ∧ watchTakes s.watch s.asm.startInstant) → ¬ watchWaited s.watch s.rx.startInstant T →
      exec (.startGlitch rotationFirst) s = .next
        { s.runTo T with rx := rxAfter s .hunting, asm := a, rot := windowPassed r s.rx.startInstant T })

/-- CHARACTER_DELIVERED in IDLE, not faulty, with edge bit 1 and a char 0 that passes its checks, opens a frame (R22): the
assembler takes it as char 0, the rotation controller moves to FRAME (R42, R45), and an OPEN watch holds a frame of its
window, in time from E + 3 T to E + 12 T (R94). A frame that began outside the interval leaves a position WINDOW, and an OPEN
watch, as they were: R45 and R94 name frames of the interval alone (assumption log 36, DEDUCED). -/
def Obligations.CharacterOpensAFrame : Prop :=
  ∀ (o : EndOrder) (s : State) (k : FrameKind),
    takesCharacter s → s.asm.cond = .idle → takenFaulty s.rx = false → takenEdge s.rx = true →
    kindOf (takenData s.rx) = some k → stationField (takenData s.rx) ≠ 31 →
    stationField (takenData s.rx) ≤ s.straps.highest →
    ∃ t, exec (.characterDelivered o.rotationFirst o.offerFirst) s = .next t ∧
      t = { s.runTo (s.rx.startInstant + 169) with
            rx := rxAfter s .hunting
            asm :=
              { cond := .inFrame, buffer := [takenData s.rx], count := 1,
                expected := if k = .answer then some 5 else none, crc := crcByte 0xFFFF (takenData s.rx),
                startInstant := s.rx.startInstant, dueInstant := s.rx.startInstant + 176,
                ownSoFar := s.rx.driven }
            rot := t.rot
            watch := t.watch } ∧
      (s.rot.station = .active → s.rot.position = .slot ∨ s.rot.position = .restDue →
        t.rot = { s.rot with position := .frame, marker := false }) ∧
      (∀ e, s.rot.station = .active → s.rot.position = .window → s.rot.tracked = some e →
        e < s.rx.startInstant → s.rx.startInstant < e + 448 →
        t.rot = { s.rot with position := .frame, marker := true }) ∧
      (s.rot.position = .window → (∀ e, s.rot.tracked = some e → ¬ inWindowOf e s.rx.startInstant) → t.rot = s.rot) ∧
      (s.rot.station ≠ .active ∨ s.rot.position = .frame ∨ s.rot.position = .unplaced → t.rot = s.rot) ∧
      (∀ w e, s.watch = .opened w e → e < s.rx.startInstant → s.rx.startInstant < e + 448 →
        t.watch = .holding w e
          { start := s.rx.startInstant, kind := k,
            inTime := decide (e + 48 ≤ s.rx.startInstant ∧ s.rx.startInstant ≤ e + 192) }) ∧
      ((∀ w e, s.watch = .opened w e → ¬ inWindowOf e s.rx.startInstant) → t.watch = s.watch)

/-- The character being received is damage (R22 to R26), for the frame that began at `start`, and the assembler enters
DISCARDING as `a`, its buffer and counts emptied (R27): in IDLE one that is faulty or carries edge bit 0, and one taken as
char 0, with the items it sets, that fails its checks (R22); in an open frame one that is faulty, carries edge bit 1 or
fails its check (R23, R24), and the last one of a frame whose CRC does not match (R26). -/
def damageAt (s : State) (start : Nat) (a : Assembler) : Prop :=
  (s.asm.cond = .idle ∧ (takenFaulty s.rx = true ∨ takenEdge s.rx = false) ∧ start = s.rx.startInstant ∧
    a = { s.asm with cond := .discarding, buffer := [], count := 0, expected := none, crc := 0xFFFF }) ∨
  (s.asm.cond = .idle ∧ takenFaulty s.rx = false ∧ takenEdge s.rx = true ∧
    checkChar0 s.straps.highest (takenData s.rx) = false ∧ start = s.rx.startInstant ∧
    a = { cond := .discarding, buffer := [], count := 0, expected := none, crc := 0xFFFF,
          startInstant := s.rx.startInstant, dueInstant := s.rx.startInstant + 176, ownSoFar := s.rx.driven }) ∨
  (s.asm.cond = .inFrame ∧
    (takenFaulty s.rx = true ∨ takenEdge s.rx = true ∨ s.asm.charOk (takenData s.rx) = false) ∧
    start = s.asm.startInstant ∧
    a = { s.asm with cond := .discarding, buffer := [], count := 0, expected := none, crc := 0xFFFF }) ∨
  (s.asm.cond = .inFrame ∧ takenFaulty s.rx = false ∧ takenEdge s.rx = false ∧ 3 ≤ s.asm.count ∧
    s.asm.expected = some (s.asm.count + 1) ∧
    ((s.asm.buffer ++ [takenData s.rx]).getD (s.asm.count - 1) 0).toNat * 256 +
      ((s.asm.buffer ++ [takenData s.rx]).getD s.asm.count 0).toNat ≠ s.asm.crc.toNat ∧
    start = s.asm.startInstant ∧
    a = { s.asm with
          cond := .discarding, buffer := [], count := 0, expected := none, crc := 0xFFFF,
          dueInstant := s.rx.startInstant + 176, ownSoFar := s.asm.ownSoFar && s.rx.driven })

/-- CHARACTER_DELIVERED that is damage, in IDLE, in an open frame or at a frame end whose CRC does not match (R22, R23, R24,
R26): the assembler enters DISCARDING (R27), a receiver whose stop bit was dominant is BLOCKED (R8), and, when the answer
watch has no part in the frame, the rotation controller takes one damage notice (R50, R51) and nothing else changes.
That a watch past its window end which waits for this character waits on, when the damaged frame is an earlier one, is the
model's choice (assumption log 35, DESIGN CHOICE). -/
def Obligations.CharacterFoundDamaged : Prop :=
  ∀ (o : EndOrder) (s : State) (start : Nat) (a : Assembler), takesCharacter s → damageAt s start a →
    ∃ t, exec (.characterDelivered o.rotationFirst o.offerFirst) s = .next t ∧
      t.rx = rxAfter s (if takenFaulty s.rx = true then .blocked else .hunting) ∧ t.asm = a ∧
      (¬ watchTakes s.watch start →
        t = { s.runTo (s.rx.startInstant + 169) with
              rx := t.rx, asm := a, rot := damageTaken s.rot (max s.now (s.rx.startInstant + 169)) })

/-- CHARACTER_DELIVERED to an assembler in DISCARDING is ignored (R28). Past the window end it closes a watch that waited for
it with no answer: the watch activity ends, withdrawing a station with leaving-pending set and no other (R61), and the
watched entry takes the result (R95, R97). From a FINISHING driver's RESTART on, no character is delivered at all (R16). That a
window of the rotation past its end which waits for the character waits on is the model's choice (assumption log 35, DESIGN
CHOICE). -/
def Obligations.CharacterIgnored : Prop :=
  ∀ (o : EndOrder) (s u : State) (waited : Prop),
    s.rstLow = false → s.straps.valid = true → s.rx.cond = .receiving → s.rx.confirmed = true →
    s.driver.cond = .finishing ∨ s.asm.cond = .discarding →
    u = { s.runTo (s.rx.startInstant + 169) with
          rx := rxAfter s (if takenFaulty s.rx = true then .blocked else .hunting) } →
    (waited ↔ s.driver.cond ≠ .finishing ∧
      watchWaited s.watch s.rx.startInstant (max s.now (s.rx.startInstant + 169))) →
    (¬ waited → exec (.characterDelivered o.rotationFirst o.offerFirst) s = .next u) ∧
    (∀ w, waited → s.watch.watched = some w →
      exec (.characterDelivered o.rotationFirst o.offerFirst) s = .next
        { u.applyWatchResult w.entry .noAnswer with
          watch := .shut, rot := afterActivity { s.rot with answerWatch := false } })

/-- CHARACTER_DELIVERED into an open frame that passes its checks and is not the last: the assembler stores it, counts it,
fixes the expected count at char 2 of a DATA or CAST, and takes every byte but the two CRC bytes into the CRC (R23). That a
watch or a window past its end which waits for this character waits on is the model's choice (assumption log 35, DESIGN
CHOICE). -/
def Obligations.CharacterTakenIntoFrame : Prop :=
  ∀ (o : EndOrder) (s : State) (ex : Option Nat),
    takesCharacter s → s.asm.cond = .inFrame → takenFaulty s.rx = false → takenEdge s.rx = false →
    s.asm.charOk (takenData s.rx) = true →
    ex = (if s.asm.count = 2 ∧ s.asm.kind ≠ .answer then some (lengthField (takenData s.rx) + 5)
      else s.asm.expected) →
    ex ≠ some (s.asm.count + 1) →
    exec (.characterDelivered o.rotationFirst o.offerFirst) s = .next
      { s.runTo (s.rx.startInstant + 169) with
        rx := rxAfter s .hunting
        asm :=
          { s.asm with
            buffer := s.asm.buffer ++ [takenData s.rx], count := s.asm.count + 1, expected := ex,
            crc := if ex.all (fun n => decide (s.asm.count + 2 < n)) then crcByte s.asm.crc (takenData s.rx)
              else s.asm.crc
            dueInstant := s.rx.startInstant + 176, ownSoFar := s.asm.ownSoFar && s.rx.driven } }

/-- The header checks (R23): char 0, char 1 and char 2, by the kind that char 0 carries. -/
def Obligations.HeaderChecksFollowTheTable : Prop :=
  (∀ (h : Nat) (b : Byte), checkChar0 h b = true ↔
    (b.toNat / 32 = 1 ∨ b.toNat / 32 = 2 ∨ b.toNat / 32 = 3) ∧ b.toNat % 32 ≠ 31 ∧ b.toNat % 32 ≤ h) ∧
  (∀ b : Byte, checkChar1 .data b = true ↔ b.toNat % 32 ≠ 31) ∧
  (∀ b : Byte, checkChar1 .cast b = true ↔ b.toNat % 32 = 31 ∧ b.toNat / 32 = 0) ∧
  (∀ b : Byte, checkChar1 .answer b = true) ∧
  (∀ b : Byte, checkChar2 .data b = true ↔ 1 ≤ b.toNat % 128 ∧ b.toNat % 128 ≤ 120) ∧
  (∀ b : Byte, checkChar2 .cast b = true ↔ b.toNat < 128 ∧ 1 ≤ b.toNat % 128 ∧ b.toNat % 128 ≤ 120) ∧
  (∀ b : Byte, checkChar2 .answer b = true ↔ b.toNat < 4) ∧
  (∀ (a : Assembler) (b : Byte),
    (a.count = 1 → a.charOk b = checkChar1 a.kind b) ∧ (a.count = 2 → a.charOk b = checkChar2 a.kind b) ∧
    (3 ≤ a.count → a.charOk b = true))

/-- The character being received, delivered at its stop cell, ends a good frame `f` (R26, R29). -/
def endsGoodFrame (s : State) (f : Frame) : Prop :=
  takesCharacter s ∧ takenFaulty s.rx = false ∧
  (s.asm.deliver s.straps.own s.straps.highest (max s.now (s.rx.startInstant + 169)) s.rx.char).2 = .good f

/-- The answer watch holds the frame `f` (R94, R96). -/
def holdsFrame (w : Watch) (f : Frame) : Prop := ∃ x e h, w = .holding x e h ∧ h.start = f.start

/-- The state in which a good frame's last character has reached the assembler and no block has acted on the frame:
receiver HUNTING, assembler IDLE (R8, R26), its count 0 and its expected count unknown (assumption log 11). -/
def atFrameEnd (s : State) : State :=
  { s.runTo (s.rx.startInstant + 169) with
    rx := rxAfter s .hunting
    asm := { s.asm.takeChar s.rx.char with cond := .idle, count := 0, expected := none } }

/-- The record a frame makes (R140): its fields from the frame, its blocks the lowest-numbered FREE ones (R130), its
casts_lost_before the tally (R145). -/
def recordOf (s : State) (f : Frame) (c : RecordClass) : ReceiveRecord :=
  { ref := s.nextRef, source := f.sender, cls := c, castsLost := s.rxq.tally, length := f.length,
    blocks := s.pool.freeBlocks.take ((f.length + 15) / 16) }

/-- The state with a record made from a frame and appended (R88, R132, R140, R145): the granted blocks pass to it and are
filled with the payload, and the tally returns to 0. -/
def recorded (s : State) (f : Frame) (c : RecordClass) : State :=
  { s with
    pool := s.pool.claim (recordOf s f c).blocks (.receive s.nextRef) f.payload
    rxq := { records := s.rxq.records ++ [recordOf s f c], tally := 0 }
    nextRef := s.nextRef + 1 }

/-- There is room for a frame: fewer than 24 records, and free blocks enough (R86, R143). -/
def roomFor (s : State) (f : Frame) : Prop :=
  s.rxq.records.length < 24 ∧ (f.length + 15) / 16 ≤ s.pool.freeCount

/-- What the receive path does with a good CAST from another station: recorded with room, and otherwise dropped with the
tally raised, in every station state (R143, R144). -/
def castTaken (s t : State) (f : Frame) : Prop :=
  (roomFor s f → t = recorded s f .cast) ∧
  (¬ roomFor s f → t = { s with rxq := { s.rxq with tally := min 255 (s.rxq.tally + 1) } })

/-- What the answer unit does with a good DATA addressed to this station in LISTEN or ACTIVE (R86): TAKEN_AGAIN for
DUPLICATE, OUT_OF_STEP for STRAY, and for NEXT and NEW_LINK TAKEN with room and BUSY without. The answer is DUE at E + 4 T;
TAKEN appends the record and takes the acceptance claim (R88, R80), and every other answer leaves the records, the pool
and the peer table as they were. -/
def dataTaken (s t : State) (f : Frame) : Prop :=
  ∃ code u, t = { u with
      pend := some { phase := .due, sender := f.sender, seq := f.seq, code := code, windowStart := f.fin + 64 } } ∧
    (code ≠ .taken → u = s) ∧
    match classify (s.peer f.sender) f.seq f.fresh with
    | .duplicate => code = .takenAgain
    | .stray => code = .outOfStep
    | c => (¬ roomFor s f → code = .busy) ∧
      (roomFor s f → code = .taken ∧
        u = { recorded s f (.data f.seq (decide (c = .newLink))) with
              peers := s.peers.modify f.sender fun p =>
                { p with rxExpect := some (f.seq + 1), rxLastFresh := f.fresh } })

/-- The rotation controller after a good CAST (R43, R58): a station in LISTEN or ACTIVE is anchored with B = k + 1 and slot 0
at E + 4 T; another is not. -/
def anchoredByCast (r : Rotation) (h : Nat) (f : Frame) : Rotation :=
  if r.station = .listen ∨ r.station = .active then
    { r with
      station := .active, anchored := true, base := (f.sender + 1) % (h + 1), baseTime := f.fin + 64,
      position := .slot, slotIndex := 0, nextSlot := 0, tracked := none, marker := false }
  else r

/-- The rotation controller after a good DATA (R44): a station in LISTEN or ACTIVE is anchored with B = k + 1, follows the
window of E and takes E + 28 T for its base time; another is not. -/
def anchoredByData (r : Rotation) (h : Nat) (f : Frame) : Rotation :=
  if r.station = .listen ∨ r.station = .active then
    { r with
      station := .active, anchored := true, base := (f.sender + 1) % (h + 1), baseTime := f.fin + 448,
      position := .window, tracked := some f.fin, marker := false }
  else r

/-- The rotation controller after a good ANSWER `r` becomes `u`: one that belongs to the window held sets the base time to
E + 4 T and keeps B (R46); an own one outside every held window changes nothing (R49); any other is misplaced, counted, and
puts an ACTIVE station into LISTEN (R48). In WITHDRAWN it changes nothing (R58). -/
def answerTaken (r u : Rotation) (f : Frame) : Prop :=
  (r.station = .withdrawn ∨ r.station = .strapFault → u = r) ∧
  (r.station = .listen ∨ r.station = .active → ∀ e,
    (r.station = .listen ∨ r.position = .window ∨ r.position = .frame ∧ r.marker = true) →
    r.tracked = some e → e < f.start → f.start < e + 448 →
    u = { r with
      station := .active, anchored := true, baseTime := f.fin + 64, position := .slot, slotIndex := 0,
      nextSlot := 0, tracked := none, marker := false }) ∧
  (r.station = .listen ∨ r.station = .active →
    (∀ e, r.tracked = some e → ¬ (e < f.start ∧ f.start < e + 448)) ∨
      r.station = .active ∧ r.position ≠ .window ∧ (r.position = .frame → r.marker = false) →
    (f.own = true → u = r) ∧
    (f.own = false → r.station = .active → u = damageTaken r f.fin) ∧
    (f.own = false → r.station = .listen → u = { r with damaged := min 65535 (r.damaged + 1) }))

/-- A good CAST's end with a watch that does not hold it, in either order of the blocks: it anchors a station in LISTEN or
ACTIVE with B = k + 1 and slot 0 at E + 4 T (R43), and anchors no other (R58). A CAST from another station is recorded when
there are fewer than 24 records and blocks enough, and otherwise dropped with the tally raised, in every station state
(R143, R144); an own or same-number one is not offered (R31, R32). Nothing else changes. That the assembler's count returns
to 0 and its expected count to unknown is the model's reading (assumption log 11, DEDUCED). The model's choices: the slot index
is 0 from E on, before slot 0 begins (assumption log 34, DESIGN CHOICE), and an OPEN watch that waits for the frame's last
character waits on (assumption log 35, DESIGN CHOICE). -/
def Obligations.GoodCastEnd : Prop :=
  ∀ (o : EndOrder) (s : State) (f : Frame), endsGoodFrame s f → f.kind = .cast → ¬ holdsFrame s.watch f →
    ∃ u, exec (.characterDelivered o.rotationFirst o.offerFirst) s = .next
        { u with rot := anchoredByCast s.rot s.straps.highest f } ∧
      (f.own = true ∨ f.sameNumber = true → u = atFrameEnd s) ∧
      (f.own = false → f.sameNumber = false → castTaken (atFrameEnd s) u f)

/-- A good DATA's end that no block but the rotation controller takes, with a watch that does not hold it (an own DATA ends
with the watch NOTED or OPEN): an own frame (R49), a same-number frame, one to another station, and one to a station not
in LISTEN or ACTIVE (R30, R44, R85). The assembler's counts after it are assumption log 11 (DEDUCED), and a watch that waits
for the frame's last character and waits on is assumption log 35 (DESIGN CHOICE). -/
def Obligations.GoodDataEndAnchorsAlone : Prop :=
  ∀ (o : EndOrder) (s : State) (f : Frame), endsGoodFrame s f → f.kind = .data → ¬ holdsFrame s.watch f →
    f.own = true ∨ f.sameNumber = true ∨ f.dest ≠ s.straps.own ∨ s.rot.station = .withdrawn ∨
      s.rot.station = .strapFault →
    exec (.characterDelivered o.rotationFirst o.offerFirst) s = .next
        { atFrameEnd s with rot := anchoredByData s.rot s.straps.highest f }

/-- A good DATA addressed to this station in LISTEN or ACTIVE, with a watch that does not hold it: the answer is chosen by
the table of R86, made DUE at E + 4 T with its activity begun (R59); TAKEN appends the record and takes the acceptance
claim (R88, R80), and every other answer leaves the records, the pool and the peer table as they were. An earlier pending
answer is superseded, and its end is reported first (R89): with leaving-pending set and nothing else in progress the
station withdraws there (R61), and the new answer stands all the same. That last case is the model's reading (assumption
log 13, DEDUCED), and so are the assembler's counts (assumption log 11, DEDUCED). A watch that waits for the frame's last
character and waits on is the model's choice (assumption log 35, DESIGN CHOICE). -/
def Obligations.AddresseeDecides : Prop :=
  ∀ (o : EndOrder) (s : State) (f : Frame) (ends : Prop), endsGoodFrame s f → f.kind = .data →
    ¬ holdsFrame s.watch f → f.own = false → f.sameNumber = false → f.dest = s.straps.own →
    s.rot.station = .listen ∨ s.rot.station = .active →
    (ends ↔ s.pend ≠ none ∧ s.rot.leaving = true ∧ s.rot.ownFrame = false ∧ s.rot.answerWatch = false) →
    ∃ u r, exec (.characterDelivered o.rotationFirst o.offerFirst) s = .next
        { u with rot := r } ∧ dataTaken (atFrameEnd s) u f ∧
      (¬ ends → r = { anchoredByData s.rot s.straps.highest f with answer := true }) ∧
      (ends → o.rotationFirst = false → o.offerFirst = true → r = { withdrawn s.rot with answer := true }) ∧
      (ends → o.rotationFirst = true ∨ o.offerFirst = false →
        r = { withdrawn (anchoredByData s.rot s.straps.highest f) with answer := true })

/-- The classification of a DATA frame that carries FRESH (R78), and of one that does not (R79). -/
def Obligations.ClassificationByFreshAndSeq : Prop :=
  ∀ (p : PeerEntry) (seq : Seq),
    (classify p seq true =
      if ∃ e, p.rxExpect = some e ∧ seq = e - 1 ∧ p.rxLastFresh = true then .duplicate else .newLink) ∧
    (p.rxExpect = none → classify p seq false = .newLink) ∧
    ∀ e, p.rxExpect = some e →
      classify p seq false = if seq = e then .next else if seq = e - 1 then .duplicate else .stray

/-- A good ANSWER's end with a watch that does not hold it: one that belongs to the window held sets the base time to E + 4 T
and keeps B (R46); an own one outside every held window changes nothing (R49); any other is misplaced, counted, and puts an
ACTIVE station into LISTEN (R48). In WITHDRAWN it changes nothing (R58). The assembler's counts after it are assumption
log 11 (DEDUCED). The slot index 0 from E on, before slot 0 begins, is assumption log 34 (DESIGN CHOICE), and a watch that
waits for the frame's last character and waits on is assumption log 35 (DESIGN CHOICE). -/
def Obligations.GoodAnswerEnd : Prop :=
  ∀ (o : EndOrder) (s : State) (f : Frame), endsGoodFrame s f → f.kind = .answer → ¬ holdsFrame s.watch f →
    ∃ r, exec (.characterDelivered o.rotationFirst o.offerFirst) s = .next
        { atFrameEnd s with rot := r } ∧ answerTaken s.rot r f

/-- The samples that pass before the quiet timer shows `n`: none when it does, and else those still to count, and the present
one beside them when it was read dominant (R10). -/
def samplesToQuiet (s : State) (n : Nat) : Nat :=
  if n ≤ s.quiet.elapsed then 0 else n - s.quiet.elapsed + (s.quiet.since - s.now)

/-- FRAME_TRUNCATION finds damage at the due instant plus 2 T: the assembler enters DISCARDING (R25, R27), and, when the
answer watch has no part in the frame, the rotation controller takes one damage notice and nothing else changes.
DISCARD_SETTLE brings a DISCARDING assembler to IDLE as soon as the quiet timer shows 4 T (R28), counted by R10 (assumption
log 27, DESIGN CHOICE), also when that falls inside the damaged frame (assumption log 37, DESIGN CHOICE). -/
def Obligations.TruncationAndSettle : Prop :=
  (∀ s : State, s.rstLow = false → s.straps.valid = true → s.asm.cond = .inFrame → s.rx.cond ≠ .receiving →
    ∃ t, exec .frameTruncation s = .next t ∧
      t.asm = { s.asm with cond := .discarding, buffer := [], count := 0, expected := none, crc := 0xFFFF } ∧
      (watchTakes s.watch s.asm.startInstant → t.watch = .shut) ∧
      (¬ watchTakes s.watch s.asm.startInstant →
        t = { s.runTo (s.asm.dueInstant + 32) with
              asm := t.asm, rot := damageTaken s.rot (max s.now (s.asm.dueInstant + 32)) })) ∧
  (∀ s : State, s.rstLow = false → s.straps.valid = true → s.asm.cond = .discarding →
    ∃ t, exec .discardSettle s = .next t ∧
      t = { s.advance (samplesToQuiet s 64) with asm := { s.asm with cond := .idle } } ∧
      64 ≤ t.quiet.elapsed ∧ (s.quiet.elapsed ≤ 64 → t.quiet.elapsed = 64) ∧
      ∀ k, k < samplesToQuiet s 64 → (s.advance k).quiet.elapsed < 64)

/-! ## Characters sent and the driver's mismatches -/

/-- CHARACTER_SENT for a character that is not the frame's last: at the mid-bit of its stop cell the driver's compare is done
and the emitter advances its index (R12, R34). The next character has been presented by then, since the stop cell began
7 samples earlier, in the samples that pass up to that instant (PassingSamplesMoveOnlyTheClocks): it stands presented with
edge bit 0, its byte taken into the CRC. A report taken while the stop cell before it stands compared is of the character
that begins at the end of that cell (R11).
The driver sends each character by the table of R5, a start cell dominant, data bits 0 to 7 with 0 dominant, the edge bit and
a stop cell recessive, each cell for 16 samples, and LTX is low exactly in its dominant cells (R11). At the end of a stop cell
compared the character presented begins, and with none presented LTX stays released (R11). -/
def Obligations.CharacterSentPresentsTheNext : Prop :=
  (∀ c : LineChar, charLevel c 0 = .dominant ∧
    (∀ n, n < 8 → charLevel c (n + 1) = if c.data.getLsbD n = true then .recessive else .dominant) ∧
    (charLevel c 9 = if c.edge = true then .recessive else .dominant) ∧ charLevel c 10 = .recessive) ∧
  (∀ (s : State) (T : Nat), s.now ≤ T →
    (s.driver.cond = .idle → (s.runTo T).ltxLow = false) ∧
    (∀ cell, s.driver.cond ≠ .idle → cell < 11 → s.driver.charStart + 16 * cell ≤ T →
      T < s.driver.charStart + 16 * cell + 16 →
      ((s.runTo T).ltxLow = true ↔ charLevel s.driver.char cell = .dominant)) ∧
    (∀ cell c, s.driver.cond = .driving → s.driver.sent = true → s.driver.next = some c → cell < 11 →
      s.driver.charStart + 176 + 16 * cell ≤ T → T < s.driver.charStart + 176 + 16 * cell + 16 →
      ((s.runTo T).ltxLow = true ↔ charLevel c cell = .dominant)) ∧
    (s.driver.cond = .driving → s.driver.sent = true → s.driver.next = none → s.driver.charStart + 176 ≤ T →
      (s.runTo T).ltxLow = false)) ∧
  ∀ (tap : Tap) (s v u : State), v = atCompare s → v.driver.cond = .driving → v.driver.sent = false →
    s.em.cond = .emitting → majority tap = .recessive → s.em.index + 1 < s.em.count →
    u = v.runTo (v.driver.charStart + 169) →
    (v.driver.next = none →
      exec (.characterSent tap) s = .next
        { u with
          driver := { v.driver with sent := true, next := some (nextCharOf v) }
          em := { coversNext v with index := s.em.index + 1 } }) ∧
    (∀ c, v.driver.next = some c →
      exec (.characterSent tap) s = .next
        { u with driver := { v.driver with sent := true }, em := { v.em with index := s.em.index + 1 } })

/-- CHARACTER_SENT for the frame's last character emits the frame (R35): the emitter returns to IDLE and the fault count
falls (R56). A CAST is concluded SENT (R111); a DATA counts its attempt and opens the watch at that instant (R112, R93);
an ANSWER ends its pending answer (R91), but a superseded one ends none, and the fault count alone is told of it (R89). The
end of the CAST's or the ANSWER's activity withdraws a station with leaving-pending set and no other in progress (R61). A
report taken while the stop cell before it stands compared is of the character that begins at the end of that cell (R11).
That the IDLE emitter holds its reset values is the model's reading (assumption log 12, DEDUCED). -/
def Obligations.LastCharacterSentEmitsTheFrame : Prop :=
  ∀ (tap : Tap) (s v : State), v = atCompare s → v.driver.cond = .driving → v.driver.sent = false →
    s.em.cond = .emitting → majority tap = .recessive → s.em.count ≤ s.em.index + 1 →
    ∃ t, exec (.characterSent tap) s = .next t ∧
      t.now = max s.now (v.driver.charStart + 169) ∧ t.em = Emitter.init ∧
      t.driver = { v.driver with sent := true, next := none } ∧
      t.rxq = s.rxq ∧ t.asm = s.asm ∧ t.rx = s.rx ∧ t.port = s.port ∧ t.nextRef = s.nextRef ∧
      (∀ a, readCell t.pool.cells a = readCell s.pool.cells a) ∧
      (∀ ref e, s.em.source = .transmit ref .cast → findEntry s.txq ref = some e → e.isCast = true →
        t.rot = afterActivity { s.rot with faultCount := s.rot.faultCount - 1, ownFrame := false } ∧
        t.txq = removeEntry s.txq ref ∧ t.pool = s.pool.release (.transmit ref) ∧
        t.compq = s.compq ++
          [{ tag := e.tag, dest := e.dest, outcome := .sent, attempts := e.attempts, busyAnswers := e.busyAnswers }] ∧
        t.peers = s.peers ∧ t.watch = s.watch ∧ t.pend = s.pend) ∧
      (∀ ref w, s.em.source = .transmit ref .data → s.watch = .noted w →
        t.rot = { s.rot with faultCount := s.rot.faultCount - 1, ownFrame := false, answerWatch := true } ∧
        t.txq = updateEntry s.txq ref (fun e => { e with attempts := e.attempts + 1, attemptedEver := true }) ∧
        t.watch = .opened w t.now ∧ t.compq = s.compq ∧ t.pool = s.pool ∧ t.peers = s.peers ∧ t.pend = s.pend) ∧
      (∀ p, s.em.source = .answer → s.pend = some p → p.phase = .emitting →
        t.rot = afterActivity { s.rot with faultCount := s.rot.faultCount - 1, answer := false } ∧ t.pend = none ∧
        t.txq = s.txq ∧ t.compq = s.compq ∧ t.pool = s.pool ∧ t.peers = s.peers ∧ t.watch = s.watch) ∧
      (s.em.source = .answer → (∀ p, s.pend = some p → p.phase = .due) →
        t.rot = { s.rot with faultCount := s.rot.faultCount - 1 } ∧ t.pend = s.pend ∧
        t.txq = s.txq ∧ t.compq = s.compq ∧ t.pool = s.pool ∧ t.peers = s.peers ∧ t.watch = s.watch)

/-- The rotation controller after a lost report at `t` (R55 to R57, R59) for a frame of the station's own that began at
`start`, before R61's withdrawal: both counts rise; at 8 the station is WITHDRAWN with cause FAULTS (from WITHDRAWN too,
assumption log 22), and an ACTIVE station below 8 enters LISTEN, keeping the window that the lost frame belonged to. -/
def lossTaken (r : Rotation) (kind : FrameKind) (start t : Nat) : Rotation :=
  let r1 := { r with
    faultCount := min 8 (r.faultCount + 1), losses := min 65535 (r.losses + 1),
    ownFrame := if kind = .answer then r.ownFrame else false }
  if 8 ≤ r.faultCount + 1 then { withdrawn r1 with cause := .faults }
  else if r.station = .active then
    { r1 with
      station := .listen, anchored := false, position := .unplaced, marker := false, listenEntry := t,
      tracked :=
        match r.tracked with
        | some e =>
          if (r.position = .window ∨ r.position = .frame ∧ r.marker = true) ∧ e < start ∧ start < e + 448 then some e
          else none
        | none => none }
  else r1

/-- The driver's compare of a cell disagrees while a frame is being emitted: a loss or a line fault (R13, R14), of the
character being driven or, with its stop cell compared already, of the one that begins at the end of that cell (R11). -/
def mismatchIn (s : State) (i : Instr) (cell : Fin 11) : Prop :=
  (atCompare s).driver.cond = .driving ∧ (atCompare s).driver.sent = false ∧ s.em.cond = .emitting ∧
  ∃ tap,
    i = .loss cell tap ∧ charLevel (atCompare s).driver.char cell.val = .recessive ∧ majority tap = .dominant ∨
    i = .lineFault cell tap ∧ charLevel (atCompare s).driver.char cell.val = .dominant ∧ majority tap = .recessive

/-- LOSS and LINE_FAULT (R13, R14): at the mid-bit of the cell the driver releases LTX and goes IDLE, the character being
received loses its driven indication (R15), and the emitter reports lost and goes IDLE (R36). The fault and loss counts rise
(R55 to R57), and a station with leaving-pending set and no other activity withdraws (R61). A transmit entry with no cancel
deferred returns to its return state with its counts unchanged, and one returning to WAITING gives up its peer's reference
(R113, R74); one with a cancel deferred is concluded (R123, DeferredCancelsAreResolved). The noted watch is SHUT (R93); a
lost ANSWER ends its pending answer (R91), but a superseded one ends none (R89). The model's readings: the IDLE emitter holds
its reset values (assumption log 12, DEDUCED), the eighth fault gives cause FAULTS in WITHDRAWN too (assumption log 22,
DEDUCED), and the driven indication is cleared by the mismatch (assumption log 20, DEDUCED). The model's choice: the rotation
controller takes the report before the frame's owner, so the LISTEN entry instant is that of the report even when the end of
a lost ANSWER then withdraws the station (assumption log 32, DESIGN CHOICE); and the eighth fault, by a superseded ANSWER,
leaves the new answer DUE in WITHDRAWN (assumption log 38, DESIGN CHOICE). -/
def Obligations.MismatchLosesTheFrame : Prop :=
  ∀ (i : Instr) (cell : Fin 11) (s : State), mismatchIn s i cell →
    ∃ t T, exec i s = .next t ∧ T = max s.now ((atCompare s).driver.charStart + 16 * cell.val + 9) ∧
      t.now = T ∧ t.driver.cond = .idle ∧ t.ltxLow = false ∧ t.em = Emitter.init ∧
      t.rx = { s.rx with driven := false } ∧ t.asm = s.asm ∧ t.rxq = s.rxq ∧ t.port = s.port ∧
      (∀ a, readCell t.pool.cells a = readCell s.pool.cells a) ∧
      (∀ ref kind, s.em.source = .transmit ref kind → kind ≠ .answer →
        t.rot = afterActivity (lossTaken s.rot kind s.em.frameStart T) ∧ t.pend = s.pend ∧
        (∀ w, kind = .data → s.watch = .noted w → t.watch = .shut) ∧
        (∀ e, findEntry s.txq ref = some e → e.cancelPending = true →
          t.txq = removeEntry s.txq ref ∧ t.compq.length = s.compq.length + 1 ∧
          t.pool = s.pool.release (.transmit ref)) ∧
        (∀ e, findEntry s.txq ref = some e → e.cancelPending = false →
          t.txq = updateEntry s.txq ref (fun x => { x with state := x.returnState }) ∧
          t.compq = s.compq ∧ t.pool = s.pool ∧
          t.peers =
            if e.isCast = false ∧ e.returnState = .waiting then
              s.peers.modify e.dest fun p =>
                { p with outstanding := if p.outstanding = some ref then none else p.outstanding }
            else s.peers)) ∧
      (∀ p, s.em.source = .answer → s.pend = some p → p.phase = .emitting →
        t.rot = afterActivity { lossTaken s.rot .answer s.em.frameStart T with answer := false } ∧ t.pend = none ∧
        t.txq = s.txq ∧ t.compq = s.compq ∧ t.pool = s.pool ∧ t.peers = s.peers ∧ t.watch = s.watch) ∧
      (s.em.source = .answer → (∀ p, s.pend = some p → p.phase = .due) →
        t.rot = afterActivity (lossTaken s.rot .answer s.em.frameStart T) ∧ t.pend = s.pend ∧
        t.txq = s.txq ∧ t.compq = s.compq ∧ t.pool = s.pool ∧ t.peers = s.peers ∧ t.watch = s.watch)

/-! ## Characters sent and the driver's mismatches -/

/-- FINISHING_END at the end of the stop cell, or at the mid-bit of a cell compared in disagreement: LTX released, the
receiver and the quiet timer reset at that instant, the emitter in IDLE, and no report (R16, R37). The values held in the
emptied items and the last-dominant instant, set to the reset instant, are the model's choice (assumption log 16, DESIGN
CHOICE). -/
def Obligations.FinishingEndResult : Prop :=
  ∀ (s : State) (m : Option (Fin 11 × Tap)) (T : Nat), s.driver.cond = .finishing →
    (m = none ∧ T = s.driver.charStart + 176 ∨
      ∃ cell tap, m = some (cell, tap) ∧ s.driver.sent = false ∧
        majority tap ≠ charLevel s.driver.char cell.val ∧ T = s.driver.charStart + 16 * cell.val + 9) →
    exec (.finishingEnd m) s = .next
      { s.runTo T with
        driver := Driver.init, rx := Receiver.init, em := Emitter.init,
        quiet := { elapsed := 0, lastDominant := max s.now T, since := max s.now T } }

/-! ## Slots, rests and windows -/

/-- The rotation controller at a rest reached at `t`: ACTIVE, anchored, B = 0, the base time that instant, slot 0 at once,
and the rest count raised (R40, R41). -/
def restTaken (r : Rotation) (t : Nat) : Rotation :=
  { r with
    station := .active, anchored := true, base := 0, baseTime := t, position := .slot, slotIndex := 0, nextSlot := 0,
    tracked := none, marker := false, rests := min 65535 (r.rests + 1) }

/-- The slot whose start is taken next (R39, R47): slot i, begun 24i T after the base time at no instant already past, each
slot once and in order; the starts below it are taken (below `nextSlot`, which an anchoring sets to 0) or past, as those
that fell while a window waited for a glitch. That the past ones are left out for good is the model's reading (assumption
log 23, DEDUCED). -/
def slotComes (s : State) (i : Nat) : Prop :=
  s.rot.nextSlot ≤ i ∧ s.now ≤ s.rot.baseTime + 384 * i ∧
  ∀ j, j < i → j < s.rot.nextSlot ∨ s.rot.baseTime + 384 * j < s.now

/-- SLOT_START takes the slot start that comes next, in ACTIVE with position SLOT, if it is one of the H + 3 of the rotation:
at base time + 24i T the slot index becomes i, and the next to come is i + 1 or later (R39). A slot of another station, a
rest slot, and a slot of this station in which a condition of R52 fails (leaving-pending set, the line not idle, or no entry
offered) pass with nothing else changed (R39, R53). Which start comes next is the model's reading (assumption log 23,
DEDUCED). With the next start beyond H + 2 there is no such slot, and the command changes nothing, the clock included: that is
the model's choice (assumption log 2, DESIGN CHOICE). -/
def Obligations.SlotPasses : Prop :=
  ∀ (s u : State) (i : Nat), s.rot.station = .active → s.rot.position = .slot → slotComes s i →
    u = s.runTo (s.rot.baseTime + 384 * i) →
    (i ≤ s.straps.highest + 2 → ∃ t, exec .slotStart s = .next t ∧ t.now = s.rot.baseTime + 384 * i ∧
      t.rot.slotIndex = i ∧ t.rot.nextSlot = i + 1) ∧
    (s.straps.highest + 2 < i → exec .slotStart s = .next s) ∧
    (i ≤ s.straps.highest + 2 →
      (s.straps.highest < i ∨ (s.rot.base + i) % (s.straps.highest + 1) ≠ s.straps.own ∨ s.rot.leaving = true ∨
        u.quiet.elapsed < 64 ∨ s.asm.cond ≠ .idle ∨ s.rx.cond = .receiving ∨ offer s.txq = none) →
      exec .slotStart s = .next { u with rot := { s.rot with slotIndex := i, nextSlot := i + 1 } })

/-- SLOT_START of a slot of this station, ACTIVE, not leaving, the line idle and an entry offered: the emitter takes the
request and the driver begins char 0 at that instant (R52, R33, R11), the position becomes FRAME (R53), and the entry is
IN_FLIGHT with its return state (R109). A DATA carries the peer's tx_seq and refresh_due (R68), its peer's reference names
it (R74) and the watch is NOTED (R93); a CAST touches neither peer table nor watch.
The offer (R108) is none while an entry is IN_FLIGHT, and otherwise, under the law of selection, the head of the queue. Which
slot comes next is the model's reading (assumption log 23, DEDUCED). -/
def Obligations.OwnTurnBeginsAFrame : Prop :=
  (∀ (s u : State) (i : Nat) (e : TxEntry), s.rot.station = .active → s.rot.position = .slot →
    slotComes s i → i ≤ s.straps.highest → u = s.runTo (s.rot.baseTime + 384 * i) →
    (s.rot.base + i) % (s.straps.highest + 1) = s.straps.own → s.rot.leaving = false →
    64 ≤ u.quiet.elapsed → s.asm.cond = .idle → s.rx.cond ≠ .receiving → offer s.txq = some e → s.em.cond = .idle →
    ∃ header kind,
      (e.dest = 31 → kind = .cast ∧
        header = [BitVec.ofNat 8 (64 + s.straps.own), 0x1F, BitVec.ofNat 8 e.length]) ∧
      (e.dest ≠ 31 → kind = .data ∧
        header =
          [BitVec.ofNat 8 (32 + s.straps.own), BitVec.ofNat 8 (32 * (s.peer e.dest).txSeq.toNat + e.dest),
            BitVec.ofNat 8 ((if (s.peer e.dest).refreshDue = true then 128 else 0) + e.length)]) ∧
      exec .slotStart s = .next
        { u with
          rot := { s.rot with
            slotIndex := i, nextSlot := i + 1, position := .frame, marker := false, ownFrame := true }
          txq := updateEntry s.txq e.ref fun x => { x with returnState := x.state, state := .inFlight }
          em :=
            { cond := .emitting, source := .transmit e.ref kind, header := header, blocks := e.blocks,
              length := e.length, index := 0, count := e.length + 5, crc := crcByte 0xFFFF (header.getD 0 0),
              frameStart := u.now }
          driver :=
            { cond := .driving, char := { data := header.getD 0 0, edge := true }, charStart := u.now, sent := false,
              next := none }
          peers :=
            if e.dest = 31 then s.peers
            else s.peers.modify e.dest fun p => { p with outstanding := some e.ref }
          watch :=
            if e.dest = 31 then s.watch
            else .noted { entry := e.ref, dest := e.dest, seq := (s.peer e.dest).txSeq } }) ∧
  (∀ q : List TxEntry, (∃ e ∈ q, e.state = .inFlight) → offer q = none) ∧ offer [] = none ∧
  (∀ (s : State) (e : TxEntry) (rest : List TxEntry), s.headLaw → s.txq = e :: rest → e.state ≠ .inFlight →
    offer s.txq = some e)

/-- An own turn whose request the emitter refuses, because it is not IDLE: the entry keeps the state it held and its
counts, the position stays SLOT, no watch is noted, and nothing is driven (R33, R53, R110). A DATA entry WAITING is named by
no peer afterwards, and any other leaves the peer table as it was (R110, R74). Which slot comes next is the model's reading
(assumption log 23, DEDUCED). -/
def Obligations.OwnTurnNotStarted : Prop :=
  ∀ (s u : State) (i : Nat) (e : TxEntry), s.rot.station = .active → s.rot.position = .slot →
    slotComes s i → i ≤ s.straps.highest → u = s.runTo (s.rot.baseTime + 384 * i) →
    (s.rot.base + i) % (s.straps.highest + 1) = s.straps.own → s.rot.leaving = false →
    64 ≤ u.quiet.elapsed → s.asm.cond = .idle → s.rx.cond ≠ .receiving → offer s.txq = some e → s.em.cond ≠ .idle →
    (s.txq.map (·.ref)).Nodup → e.cancelPending = false →
    ∃ t, exec .slotStart s = .next t ∧
      t.rot = { s.rot with slotIndex := i, nextSlot := i + 1 } ∧ t.driver = u.driver ∧ t.em = u.em ∧
      t.watch = s.watch ∧ t.pool = s.pool ∧ t.compq = s.compq ∧
      t.txq = updateEntry s.txq e.ref (fun x => { x with returnState := x.state }) ∧
      t.peers =
        if e.dest ≠ 31 ∧ e.state = .waiting then
          s.peers.modify e.dest fun p =>
            { p with outstanding := if p.outstanding = some e.ref then none else p.outstanding }
        else s.peers

/-- The three rests. SECOND_REST_SLOT_END at base time + 24(H+3) T reaches a rest with 48 T of quiet and makes the position
REST_DUE without it; REST_DUE_REST reaches it as soon as the timer shows 48 T (R40). QUIET_MEASUREMENT_REST reaches it in
LISTEN as soon as the timer shows Q = 4 + 24(H+3) T and Q has passed since the entry to LISTEN (R41). The timer shows the
samples before an instant (assumption log 27, DESIGN CHOICE). That a rest drops the window which a station in LISTEN still kept
is the model's reading (assumption log 15, DEDUCED). -/
def Obligations.RestsAreReached : Prop :=
  (∀ (s u : State), s.rot.station = .active → s.rot.position = .slot →
    u = s.runTo (s.rot.baseTime + 384 * (s.straps.highest + 3)) →
    exec .secondRestSlotEnd s = .next
      (if 768 ≤ u.quiet.elapsed then { u with rot := restTaken s.rot u.now }
      else { u with rot := { s.rot with position := .restDue } })) ∧
  (∀ (s : State), s.rstLow = false → s.straps.valid = true → s.rot.station = .active →
    s.rot.position = .restDue →
    ∃ t, exec .restDueRest s = .next t ∧ 768 ≤ t.quiet.elapsed ∧
      (∀ k, k < samplesToQuiet s 768 → (s.advance k).quiet.elapsed < 768) ∧
      t = { s.advance (samplesToQuiet s 768) with rot := restTaken s.rot (s.now + samplesToQuiet s 768) }) ∧
  (∀ (s : State) (d q : Nat), s.rstLow = false → s.straps.valid = true → s.rot.station = .listen →
    s.straps.highest ≤ 30 → q = 64 + 384 * (s.straps.highest + 3) →
    d = max (samplesToQuiet s q) (s.rot.listenEntry + q - s.now) →
    ∃ t, exec .quietMeasurementRest s = .next t ∧ q ≤ t.quiet.elapsed ∧ s.rot.listenEntry + q ≤ t.now ∧
      (∀ k, k < d → (s.advance k).quiet.elapsed < q ∨ s.now + k < s.rot.listenEntry + q) ∧
      t = { s.advance d with rot := restTaken s.rot (s.now + d) })

/-- ROTATION_WINDOW_END at E + 28 T: with no character of the window being received the window has passed quiet, the base
time stands and the position becomes SLOT with the window dropped; with one being received only the clock moves (R47). -/
def Obligations.RotationWindowEndResult : Prop :=
  ∀ (s u : State) (e : Nat), s.rot.station = .active → s.rot.position = .window → s.rot.tracked = some e →
    u = s.runTo (e + 448) →
    exec .rotationWindowEnd s = .next
      (if s.rx.cond = .receiving ∧ e < s.rx.startInstant ∧ s.rx.startInstant < e + 448 then u
      else
        { u with
          rot := { s.rot with
            position := .slot, tracked := none, marker := false, nextSlot := 0,
            slotIndex := (u.now - s.rot.baseTime) / 384 } })

/-- ANSWER_WINDOW_START with a DUE answer: at the window start, the line idle and the emitter IDLE, the ANSWER begins at that
instant, in whatever station state (R90); otherwise it ends not started, with its activity (R91), and a station with
leaving-pending set and no other activity withdraws (R61). That an ANSWER whose window start has passed is not started is
the model's reading (assumption log 24, DEDUCED). -/
def Obligations.AnswerWindowStartResult : Prop :=
  ∀ (s u : State) (p : PendingAnswer) (header : List Byte), s.pend = some p → p.phase = .due →
    u = s.runTo p.windowStart →
    header = [BitVec.ofNat 8 (96 + s.straps.own), BitVec.ofNat 8 (32 * p.seq.toNat + p.sender),
      BitVec.ofNat 8 (codeVal p.code)] →
    (u.now = p.windowStart ∧ 64 ≤ u.quiet.elapsed ∧ s.asm.cond = .idle ∧ s.rx.cond ≠ .receiving ∧
        s.em.cond = .idle →
      exec .answerWindowStart s = .next
        { u with
          pend := some { p with phase := .emitting }
          em :=
            { cond := .emitting, source := .answer, header := header, blocks := [], length := 0, index := 0,
              count := 5, crc := crcByte 0xFFFF (header.getD 0 0), frameStart := u.now }
          driver :=
            { cond := .driving, char := { data := header.getD 0 0, edge := true }, charStart := u.now, sent := false,
              next := none } }) ∧
    (¬ (u.now = p.windowStart ∧ 64 ≤ u.quiet.elapsed ∧ s.asm.cond = .idle ∧ s.rx.cond ≠ .receiving ∧
        s.em.cond = .idle) →
      exec .answerWindowStart s = .next { u with pend := none, rot := afterActivity { s.rot with answer := false } })

/-- WATCH_WINDOW_END at E + 28 T with the watch OPEN: with no character of the window being received it closes with no
answer, the watch activity ends, withdrawing a station with leaving-pending set and no other activity (R61), and the entry
takes the result; with one being received only the clock moves (R95, R97). -/
def Obligations.WatchWindowEndResult : Prop :=
  ∀ (s u : State) (w : Watched) (e : Nat), s.watch = .opened w e → u = s.runTo (e + 448) →
    (s.rx.cond = .receiving ∧ e < s.rx.startInstant ∧ s.rx.startInstant < e + 448 →
      exec .watchWindowEnd s = .next u) ∧
    (¬ (s.rx.cond = .receiving ∧ e < s.rx.startInstant ∧ s.rx.startInstant < e + 448) →
      exec .watchWindowEnd s = .next
        ({ u with watch := .shut, rot := afterActivity { s.rot with answerWatch := false } }.applyWatchResult
          w.entry .noAnswer))

/-- A command that ends the last of the station's own activities, other than by a lost report (R59, R61): the emitted report
of its CAST or of its ANSWER, the window end of its open watch, the window start of an answer not started, a glitch or an
ignored character past the end of that window, the damage of a frame that the watch takes, and the end of a good frame that
the watch holds, unless that frame is offered first and gets an answer. That an answer whose window start has passed is not
started is the model's reading (assumption log 24, DEDUCED). -/
def lastActivityEnds (s : State) (i : Instr) : Prop :=
  (∃ tap, i = .characterSent tap ∧ majority tap = .recessive ∧ (atCompare s).driver.cond = .driving ∧
    (atCompare s).driver.sent = false ∧ s.em.cond = .emitting ∧ s.em.count ≤ s.em.index + 1 ∧ s.rot.answerWatch = false ∧
    ((∃ ref, s.em.source = .transmit ref .cast) ∧ s.rot.answer = false ∨
      s.em.source = .answer ∧ (∃ p, s.pend = some p ∧ p.phase = .emitting) ∧ s.rot.ownFrame = false)) ∨
  (i = .answerWindowStart ∧ s.rot.ownFrame = false ∧ s.rot.answerWatch = false ∧
    ∃ p, s.pend = some p ∧ p.phase = .due ∧
      (p.windowStart < s.now ∨ (s.runTo p.windowStart).quiet.elapsed < 64 ∨ s.asm.cond ≠ .idle ∨
        s.rx.cond = .receiving ∨ s.em.cond ≠ .idle)) ∨
  (s.rot.ownFrame = false ∧ s.rot.answer = false ∧
    ((i = .watchWindowEnd ∧ ∃ w e, s.watch = .opened w e ∧
        ¬ (s.rx.cond = .receiving ∧ inWindowOf e s.rx.startInstant)) ∨
      ((∃ r, i = .startGlitch r) ∧ s.rstLow = false ∧ s.straps.valid = true ∧ s.rx.cond = .receiving ∧ s.rx.bit 0 = true ∧
        s.now ≤ s.rx.startInstant + 9 ∧
        ∃ w e, s.watch = .opened w e ∧ inWindowOf e s.rx.startInstant ∧ e + 448 ≤ s.rx.startInstant + 9) ∨
      (i = .frameTruncation ∧ s.rstLow = false ∧ s.straps.valid = true ∧ s.asm.cond = .inFrame ∧
        s.rx.cond ≠ .receiving ∧ watchTakes s.watch s.asm.startInstant) ∨
      (∃ o : EndOrder, i = .characterDelivered o.rotationFirst o.offerFirst ∧ takesCharacter s ∧
        ((s.asm.cond = .discarding ∧ ∃ w e, s.watch = .opened w e ∧ inWindowOf e s.rx.startInstant ∧
            e + 448 ≤ s.rx.startInstant + 169) ∨
          (∃ start a, damageAt s start a ∧ watchTakes s.watch start) ∨
          (∃ f, endsGoodFrame s f ∧ holdsFrame s.watch f ∧ s.rot.answerWatch = true ∧
            (o.offerFirst = false ∨ f.kind ≠ .data ∨ f.own = true ∨ f.sameNumber = true ∨
              f.dest ≠ s.straps.own))))))

/-- The end of the last activity with leaving-pending set withdraws the station at that instant: WITHDRAWN with cause REQUEST,
leaving-pending clear, no anchor, no position and no window, and the change flag set (R61), for every report that ends an
activity (R59). By the lost report that brings the fault count to 8 the cause is FAULTS (R61, R57).
A DATA to this station that the watch holds, offered before the watch closes, keeps the station until its ANSWER has ended
(R61).
That an ANSWER whose window start has passed before ANSWER_WINDOW_START is sent ends not started, and so ends its activity, is
the model's reading (assumption log 24, DEDUCED): R91 names the line not idle at the window start and the emitter's refusal. -/
def Obligations.LastActivityEndsInWithdrawal : Prop :=
  (∀ (s : State) (i : Instr) (c : WithdrawCause), s.rot.leaving = true →
    s.rot.station = .listen ∨ s.rot.station = .active →
    (lastActivityEnds s i ∧ c = .request ∨
      (∃ cell, mismatchIn s i cell) ∧ s.rot.answerWatch = false ∧
        ((∃ ref kind, s.em.source = .transmit ref kind ∧ kind ≠ .answer) ∧ s.rot.answer = false ∨
          s.em.source = .answer ∧ (∃ p, s.pend = some p ∧ p.phase = .emitting) ∧ s.rot.ownFrame = false) ∧
        c = if 8 ≤ s.rot.faultCount + 1 then .faults else .request) →
    ∃ t, exec i s = .next t ∧ t.rot.station = .withdrawn ∧ t.rot.cause = c ∧ t.rot.leaving = false ∧
      t.rot.anchored = false ∧ t.rot.position = .unplaced ∧ t.rot.tracked = none ∧ t.rot.changeFlag = true ∧
      t.rot.setSinceSnapshot = true ∧ t.rot.ownFrame = false ∧ t.rot.answerWatch = false ∧ t.rot.answer = false) ∧
  (∀ (s : State) (o : EndOrder) (f : Frame), s.rot.leaving = true →
    s.rot.station = .listen ∨ s.rot.station = .active → endsGoodFrame s f → holdsFrame s.watch f →
    s.rot.answerWatch = true → o.offerFirst = true → f.kind = .data → f.own = false → f.sameNumber = false →
    f.dest = s.straps.own →
    ∃ t, exec (.characterDelivered o.rotationFirst o.offerFirst) s = .next
        t ∧ t.rot.station = .active ∧ t.rot.leaving = true ∧
      t.rot.answer = true ∧ t.rot.answerWatch = false ∧ t.pend.map (·.phase) = some .due)

/-! ## The results of a watch -/

/-- What a good frame does to the blocks it is offered to (R30): `t` from `s`. -/
def offered (s t : State) (f : Frame) : Prop :=
  if f.own = true ∨ f.sameNumber = true then t = s
  else match f.kind with
    | .cast => castTaken s t f
    | .data =>
      if f.dest = s.straps.own ∧ (s.rot.station = .listen ∨ s.rot.station = .active) then dataTaken s t f else t = s
    | .answer => t = s

/-- What a good frame does to the rotation controller: `u` from `r` (R43 to R49). -/
def rotationTaken (r u : Rotation) (h : Nat) (f : Frame) : Prop :=
  match f.kind with
  | .cast => u = anchoredByCast r h f
  | .data => u = anchoredByData r h f
  | .answer => answerTaken r u f

/-- What an answer that becomes DUE does to the rotation controller: an earlier pending answer ends first, which may withdraw
a station with leaving-pending set (R89, R61), and then the answer activity is in progress (R59). -/
def dueTaken (r : Rotation) (earlier : Option PendingAnswer) : Rotation :=
  { (if earlier = none then r else afterActivity { r with answer := false }) with answer := true }

/-- What the offer of a good frame does to the rotation controller `r`: a DATA to this station in LISTEN or ACTIVE brings an
answer that becomes DUE (R85, R86, R59), and any other frame nothing. -/
def offerTaken (s : State) (r : Rotation) (f : Frame) : Rotation :=
  if f.kind = .data ∧ f.own = false ∧ f.sameNumber = false ∧ f.dest = s.straps.own ∧
    (r.station = .listen ∨ r.station = .active) then dueTaken r s.pend else r

/-- What the close of the watch does to the rotation controller: its activity ends (R97, R61). -/
def watchEnded (r : Rotation) : Rotation := afterActivity { r with answerWatch := false }

/-- The result of a held frame at its good frame end (R96): the code of an ANSWER that is not an own or a same-number
frame, is in time, and matches the watched destination, this station and the seq sent; no answer for every other.
A good frame of any kind that is the held frame closes the watch at its frame end, in each order of the blocks, leaving-pending
set or not (R61, R96, R97, R136): the watch is SHUT, its activity ends, the watched entry takes the result before or after the
frame is offered, and the rotation controller takes the frame before or after the watch's report. A close that withdraws the
station comes before the offer or after it: before it, a DATA to this station is not answered (R85); after it, the answer DUE
keeps the station (R61). That an earlier pending answer ends first is assumption log 13 (DEDUCED).
A damage notice for the held frame, or in OPEN for a frame of the window, closes it with no answer (R94, R96), whether a
delivered character or the truncation is the damage. That the damage reaches the rotation controller before the watch's
report is the model's order (assumption log 14, DESIGN CHOICE), the assembler's counts are assumption log 11 (DEDUCED),
and the slot index 0 from the end of a CAST or an ANSWER on is assumption log 34 (DESIGN CHOICE). -/
def Obligations.HeldFrameClosesTheWatch : Prop :=
  (∀ (own : Nat) (w : Watched) (h : HeldFrame) (f : Frame),
    (f.kind = .answer → f.own = false → f.sameNumber = false → h.inTime = true → f.sender = w.dest →
      f.dest = own → f.seq = w.seq → heldResult own w h f = .code f.code) ∧
    (f.kind ≠ .answer ∨ f.own = true ∨ f.sameNumber = true ∨ h.inTime = false ∨ f.sender ≠ w.dest ∨ f.dest ≠ own ∨
      f.seq ≠ w.seq → heldResult own w h f = .noAnswer)) ∧
  (∀ (o : EndOrder) (s : State) (f : Frame) (w : Watched) (e : Nat) (h : HeldFrame), endsGoodFrame s f →
    s.watch = .holding w e h → h.start = f.start →
    ∃ u v x r, exec (.characterDelivered o.rotationFirst o.offerFirst) s = .next { u with watch := .shut, rot := r } ∧
      (o.offerFirst = true → offered { atFrameEnd s with rot := x } v f ∧
        u = v.applyWatchResult w.entry (heldResult s.straps.own w h f)) ∧
      (o.offerFirst = false →
        v = { atFrameEnd s with rot := x }.applyWatchResult w.entry (heldResult s.straps.own w h f) ∧ offered v u f) ∧
      (o.rotationFirst = true → o.offerFirst = true →
        rotationTaken s.rot x s.straps.highest f ∧ r = watchEnded (offerTaken s x f)) ∧
      (o.rotationFirst = true → o.offerFirst = false →
        (∃ y, rotationTaken s.rot y s.straps.highest f ∧ x = watchEnded y) ∧ r = offerTaken s x f) ∧
      (o.rotationFirst = false → o.offerFirst = true →
        x = s.rot ∧ rotationTaken (watchEnded (offerTaken s x f)) r s.straps.highest f) ∧
      (o.rotationFirst = false → o.offerFirst = false →
        rotationTaken (watchEnded s.rot) x s.straps.highest f ∧ r = offerTaken s x f)) ∧
  (∀ (i : Instr) (s u : State) (start : Nat) (a : Assembler) (w : Watched) (T : Nat) (rx : Receiver),
    ((∃ r f, i = .characterDelivered r f) ∧ takesCharacter s ∧ damageAt s start a ∧ T = s.rx.startInstant + 169 ∧
        rx = rxAfter s (if takenFaulty s.rx = true then .blocked else .hunting) ∨
      i = .frameTruncation ∧ s.rstLow = false ∧ s.straps.valid = true ∧ s.asm.cond = .inFrame ∧
        s.rx.cond ≠ .receiving ∧ start = s.asm.startInstant ∧ T = s.asm.dueInstant + 32 ∧ rx = s.rx ∧
        a = { s.asm with cond := .discarding, buffer := [], count := 0, expected := none, crc := 0xFFFF }) →
    watchTakes s.watch start → s.watch.watched = some w →
    u = (s.runTo T).applyWatchResult w.entry .noAnswer →
    exec i s = .next
      { u with
        rx := rx, asm := a, watch := .shut,
        rot := afterActivity { damageTaken s.rot (max s.now T) with answerWatch := false } })

/-- The state in which an entry has concluded (R116): it has left the queue, its blocks are FREE, one record is appended
with the counts it ends with, and its peer entry has taken `claims`. -/
def concludedWith (s : State) (e : TxEntry) (o : TxOutcome) (attempts busy : Nat) (claims : PeerEntry → PeerEntry) :
    State :=
  { s with
    txq := removeEntry s.txq e.ref
    pool := s.pool.release (.transmit e.ref)
    compq := s.compq ++ [{ tag := e.tag, dest := e.dest, outcome := o, attempts := attempts, busyAnswers := busy }]
    peers := s.peers.modify e.dest fun p =>
      { claims p with
        lastOutcome := some o, outstanding := if p.outstanding = some e.ref then none else p.outstanding } }

/-- The state in which an entry has gone back to OUTSTANDING with the given counts (R114). -/
def outstandingWith (s : State) (e : TxEntry) (attempts busy : Nat) : State :=
  { s with
    txq := updateEntry s.txq e.ref fun x =>
      { x with state := .outstanding, attempts := attempts, busyAnswers := busy } }

/-- A refresh of the send state (R70). -/
def refreshed (p : PeerEntry) : PeerEntry := { p with txSeq := p.txSeq + 1, refreshDue := true }

/-- What each result of a watch does to the entry IN_FLIGHT that was watched, with no cancel deferred (R99 to R102): the
counts, the conclusion or the return to OUTSTANDING, and the one claim on its peer (R69 to R72). -/
def Obligations.WatchResultsWithoutACancel : Prop :=
  ∀ (s : State) (e : TxEntry), findEntry s.txq e.ref = some e → e.state = .inFlight → e.isCast = false →
    e.cancelPending = false →
    (∀ c, c = .taken ∨ c = .takenAgain →
      s.applyWatchResult e.ref (.code c) =
        concludedWith s e .delivered e.attempts e.busyAnswers fun p =>
          { p with txSeq := p.txSeq + 1, refreshDue := false }) ∧
    s.applyWatchResult e.ref (.code .busy) =
      (if e.busyAnswers + 1 < 16 then outstandingWith s e (e.attempts - 1) (e.busyAnswers + 1)
      else concludedWith s e .refused (e.attempts - 1) (e.busyAnswers + 1) id) ∧
    s.applyWatchResult e.ref (.code .outOfStep) =
      (if e.attempts < 4 then
        { outstandingWith s e e.attempts e.busyAnswers with peers := s.peers.modify e.dest refreshed }
      else concludedWith s e .noAnswer e.attempts e.busyAnswers refreshed) ∧
    s.applyWatchResult e.ref .noAnswer =
      (if e.attempts < 4 then outstandingWith s e e.attempts e.busyAnswers
      else concludedWith s e .noAnswer e.attempts e.busyAnswers refreshed)

/-- The same with a cancel deferred (R123): TAKEN and TAKEN_AGAIN deliver, and every other result concludes the entry
CANCELLED_AFTER_ATTEMPT with the updated counts and one refresh.
An attempt that ends in a lost report with a cancel deferred against it concludes the entry: CANCELLED_AFTER_ATTEMPT with
one refresh if it was ever attempted, CANCELLED with the peer's send state as it was otherwise (R113, R123). -/
def Obligations.DeferredCancelsAreResolved : Prop :=
  (∀ (s : State) (e : TxEntry) (r : WatchResult), findEntry s.txq e.ref = some e → e.state = .inFlight →
    e.isCast = false → e.cancelPending = true →
    s.applyWatchResult e.ref r =
      match r with
      | .code .taken =>
        concludedWith s e .delivered e.attempts e.busyAnswers fun p =>
          { p with txSeq := p.txSeq + 1, refreshDue := false }
      | .code .takenAgain =>
        concludedWith s e .delivered e.attempts e.busyAnswers fun p =>
          { p with txSeq := p.txSeq + 1, refreshDue := false }
      | .code .busy => concludedWith s e .cancelledAfterAttempt (e.attempts - 1) (e.busyAnswers + 1) refreshed
      | .code .outOfStep => concludedWith s e .cancelledAfterAttempt e.attempts e.busyAnswers refreshed
      | .noAnswer => concludedWith s e .cancelledAfterAttempt e.attempts e.busyAnswers refreshed) ∧
  (∀ (s : State) (ref start : Nat) (kind : FrameKind) (m : Mismatch) (e : TxEntry),
    findEntry s.txq ref = some e → e.ref = ref → e.cancelPending = true → kind ≠ .answer →
    (s.lostReport (.transmit ref kind) start m).txq = removeEntry s.txq ref ∧
    (s.lostReport (.transmit ref kind) start m).pool = s.pool.release (.transmit ref) ∧
    (s.lostReport (.transmit ref kind) start m).compq = s.compq ++
      [{ tag := e.tag, dest := e.dest,
         outcome := if e.attemptedEver = true then .cancelledAfterAttempt else .cancelled,
         attempts := e.attempts, busyAnswers := e.busyAnswers }] ∧
    (e.isCast = false → (s.lostReport (.transmit ref kind) start m).peers =
      s.peers.modify e.dest fun p =>
        { p with
          txSeq := if e.attemptedEver = true then p.txSeq + 1 else p.txSeq
          refreshDue := if e.attemptedEver = true then true else p.refreshDue
          outstanding := if p.outstanding = some ref then none else p.outstanding
          lastOutcome := if e.attemptedEver = true then some .cancelledAfterAttempt else p.lastOutcome }))

/-! ## Host transactions -/

/-- TRANSACTION_OPEN in IDLE enters OPEN with byte index and bit count 0 and the first bit on MISO, fixes the summary byte,
the last-result byte, the heads of both queues and the sixteen STATUS bytes as they stand, and clears set-since-snapshot
(R154, R155); nothing else changes. The layouts and the result values are those of section 9.3. In BARRED and while RSTn is
low it opens no transaction (R159, R177).
ATTN is asserted exactly when the receive queue is non-empty, the completion queue is non-empty, or the change flag is
set (R176), and no command of the host changes it before its close. -/
def Obligations.OpeningReadingsAndAttention : Prop :=
  (∀ (dt : Nat) (s u : State), s.rstLow = false → s.port.state = .idle → u = s.advance dt →
    ∃ t r, exec (.transactionOpen dt) s = .next t ∧
      t = { u with
            port := { s.port with
              state := .opened, bitsIn := [], sckHigh := false, command := none, params := [], returned := [],
              opening := some r, peerSnapshot := none }
            rot := { s.rot with setSinceSnapshot := false } } ∧
      t.misoBit = some (r.summary.getLsbD 7) ∧
      r.lastResult = resultByte s.port.lastResult ∧ r.receiveHead = s.rxq.records.head? ∧
      r.completionHead = s.compq.head? ∧
      (r.summary.getLsbD 7 = true ↔ s.rxq.records ≠ []) ∧ (r.summary.getLsbD 6 = true ↔ s.compq ≠ []) ∧
      r.summary.getLsbD 5 = s.rot.changeFlag ∧ r.summary.getLsbD 4 = s.rot.anchored ∧
      r.summary.toNat / 4 % 4 = stationCode s.rot.station ∧ r.summary.getLsbD 1 = s.rot.leaving ∧
      (r.summary.getLsbD 0 = true ↔ s.txq.length + s.compq.length = 16) ∧
      r.status.length = 16 ∧
      (r.status.getD 0 0).toNat =
        stationCode s.rot.station + (if s.rot.cause = .request then 4 else 0) +
        (if s.rot.anchored = true then 8 else 0) + (if s.rot.leaving = true then 16 else 0) +
        (if s.rot.changeFlag = true then 32 else 0) ∧
      r.status.tail = [BitVec.ofNat 8 s.straps.own, BitVec.ofNat 8 s.straps.highest, BitVec.ofNat 8 s.straps.rate,
        BitVec.ofNat 8 s.rot.base, BitVec.ofNat 8 s.rot.faultCount, BitVec.ofNat 8 s.pool.freeCount,
        BitVec.ofNat 8 s.txq.length, BitVec.ofNat 8 s.compq.length, BitVec.ofNat 8 s.rxq.records.length,
        BitVec.ofNat 8 (s.rot.damaged / 256), BitVec.ofNat 8 s.rot.damaged, BitVec.ofNat 8 (s.rot.losses / 256),
        BitVec.ofNat 8 s.rot.losses, BitVec.ofNat 8 (s.rot.rests / 256), BitVec.ofNat 8 s.rot.rests]) ∧
  ([StationState.listen, .active, .withdrawn, .strapFault].map stationCode = [0, 1, 2, 3] ∧
    [Result.ok, .deferred, .full, .noRoom, .invalid, .incomplete, .unknownCommand, .notFound, .empty,
      .wrongState].map resultByte = [0x00, 0x01, 0x21, 0x22, 0x23, 0x24, 0x25, 0x26, 0x27, 0x28]) ∧
  (∀ (dt : Nat) (s : State), s.rstLow = true ∨ s.port.state = .barred →
    exec (.transactionOpen dt) s = .next (s.advance dt)) ∧
  (∀ s : State, s.attn = true ↔ s.rxq.records ≠ [] ∨ s.compq ≠ [] ∨ s.rot.changeFlag = true) ∧
  (∀ (c : HostCommand) (dt : Nat) (p : HostPhase) (s t : State), p ≠ .close → exec (hostRow c dt p) s = .next t →
    t.attn = s.attn)

/-- The byte whose bits are given as they are sent, most significant bit first (R154). -/
def bitsOf (b : Byte) : List Bool := (List.range 8).map fun i => b.getLsbD (7 - i)

/-- A byte boundary of an OPEN transaction: bit count 0, SCK low (R154). -/
def betweenBytes (s : State) : Prop := s.port.bitsIn = [] ∧ s.port.sckHigh = false

/-- COMMAND_DECODE selects the command of the command table, and UNKNOWN for every other byte, counts byte 0 clocked out with
the summary byte returned in it, discards the opening readings that the command does not use, and acts on no other block
(R155, R156, R160). Byte 0 is taken bit by bit: each rising edge of SCK samples MOSI, and the eighth completes the byte and
decodes it (R154). The step of a whole byte, the same as its eight cycles of SCK, is the model's form (assumption log 8). -/
def Obligations.CommandDecodeResult : Prop :=
  (∀ (dt : Nat) (b : Byte) (s u : State) (r : OpeningReadings), s.port.state = .opened → s.port.command = none →
    s.port.opening = some r → u = s.advance dt →
    ∃ c q, (c = .nop ↔ b = 0x00) ∧ (c = .post ↔ b = 0x10) ∧ (c = .take ↔ b = 0x20) ∧ (c = .reap ↔ b = 0x30) ∧
      (c = .status ↔ b = 0x40) ∧ (c = .peer ↔ b = 0x41) ∧ (c = .cancel ↔ b = 0x50) ∧ (c = .flush ↔ b = 0x51) ∧
      (c = .leave ↔ b = 0x60) ∧ (c = .rejoin ↔ b = 0x61) ∧ (c = .restart ↔ b = 0x7E) ∧
      q = { r with
            receiveHead := if c = .take then r.receiveHead else none
            completionHead := if c = .reap then r.completionHead else none
            status := if c = .status then r.status else [] } ∧
      (betweenBytes s → exec (.commandDecode dt (.byte b)) s = .next
        { u with port := { s.port with command := some c, returned := [r.summary], opening := some q } }) ∧
      (∀ m, s.port.sckHigh = false → s.port.bitsIn ++ [m] = bitsOf b →
        exec (.commandDecode dt (.rise m)) s = .next
          { u with
            port := { s.port with
              command := some c, returned := [r.summary], opening := some q, bitsIn := [], sckHigh := true } })) ∧
  (∀ (dt : Nat) (m : Bool) (s u : State), s.port.state = .opened → s.port.command = none → u = s.advance dt →
    (s.port.sckHigh = false → s.port.bitsIn.length < 7 →
      exec (.commandDecode dt (.rise m)) s = .next
        { u with port := { s.port with bitsIn := s.port.bitsIn ++ [m], sckHigh := true } }) ∧
    exec (.commandDecode dt .fall) s = .next { u with port := { s.port with sckHigh := false } })

/-- VOID_TRANSACTION closes a transaction before byte 0 is whole and sets no result, and BARRED_CSN_RISE brings a BARRED port
to IDLE and closes nothing: every other block is left as it was (R159). -/
def Obligations.VoidAndBarredClosesSetNoResult : Prop :=
  ∀ (dt : Nat) (s : State),
    (s.port.state = .opened → s.port.command = none →
      exec (.voidTransaction dt) s =
        .next { s.advance dt with port := { s.port with state := .idle, bitsIn := [], sckHigh := false } }) ∧
    (s.port.state = .barred →
      exec (.barredCsnRise dt) s = .next { s.advance dt with port := { s.port with state := .idle } })

/-- The outcome values (section 9.3, REAP byte 4). -/
def outcomeCode : TxOutcome → Byte
  | .delivered => 0x00
  | .sent => 0x01
  | .noAnswer => 0x02
  | .refused => 0x03
  | .cancelled => 0x04
  | .cancelledAfterAttempt => 0x05

/-- The receive header, TAKE bytes 2 to 5 (section 9.3): class in bit 7 and source; seq in bits 7:5 and LINK_NEW in bit 0 of
a DATA, 0 for a CAST; length; casts_lost_before. -/
def headerBytes (h : ReceiveRecord) : List Byte :=
  match h.cls with
  | .cast => [BitVec.ofNat 8 (128 + h.source), 0, BitVec.ofNat 8 h.length, BitVec.ofNat 8 h.castsLost]
  | .data seq new =>
    [BitVec.ofNat 8 h.source, BitVec.ofNat 8 (32 * seq.toNat + if new = true then 1 else 0),
      BitVec.ofNat 8 h.length, BitVec.ofNat 8 h.castsLost]

/-- The peer block, PEER bytes 2 to 7 (section 9.3). -/
def peerBytes (p : PeerSnapshot) : List Byte :=
  [BitVec.ofNat 8 p.station,
    BitVec.ofNat 8 (p.txSeq.toNat + (if p.refreshDue = true then 8 else 0) + if p.present = true then 16 else 0),
    p.tag, BitVec.ofNat 8 p.position,
    match p.rxExpect with
    | none => BitVec.ofNat 8 (if p.rxLastFresh = true then 16 else 0)
    | some x => BitVec.ofNat 8 (x.toNat + 8 + if p.rxLastFresh = true then 16 else 0),
    match p.lastOutcome with
    | none => 0x07
    | some o => outcomeCode o]

/-- What the port returns in the byte of index k, from 1 on (R157, R162): the last-result byte in byte 1; the receive header
and payload of a TAKE (R149, R166), the completion block of a REAP (R167), the status block of a STATUS (R168) and the peer
block of a PEER (R170) from byte 2; and 00h in every other byte. In STRAP_FAULT a TAKE reads nothing (R166), and nor does a
REAP, which is the model's reading of R167 (assumption log 29, DEDUCED). -/
def dataByte (s : State) (r : OpeningReadings) (c : HostCommand) (k : Nat) : Byte :=
  if k = 1 then r.lastResult
  else match c with
    | .take =>
      if s.rot.station = .strapFault then 0
      else match r.receiveHead with
        | none => 0
        | some h =>
          if k < 6 then (headerBytes h).getD (k - 2) 0
          else if k - 6 < h.length then payloadByte s.pool.cells h.blocks (k - 6) else 0
    | .reap =>
      if s.rot.station = .strapFault then 0
      else match r.completionHead with
        | none => 0
        | some h =>
          [h.tag, BitVec.ofNat 8 h.dest, outcomeCode h.outcome, BitVec.ofNat 8 h.attempts,
            BitVec.ofNat 8 h.busyAnswers].getD (k - 2) 0
    | .status => r.status.getD (k - 2) 0
    | .peer =>
      match s.port.peerSnapshot with
      | none => 0
      | some p => (peerBytes p).getD (k - 2) 0
    | _ => 0

/-- A byte exchanged whole after byte 0 by a command that takes no parameter: its index rises, the byte returned is the
command's data, and the byte sent is ignored (R154, R157, R162).
For every row of a host transaction, SCK by SCK (R154): a rising edge samples MOSI; the eighth completes the byte and does
what the whole byte does; MISO shows the byte returned, most significant bit first, from the opening or the falling edge
before, and a rising edge never changes it; outside a transaction it is high-impedance.
The model's form (assumption logs 8, DEDUCED, and 2, DESIGN CHOICE): a whole byte is one step from a byte boundary, and a
row reported while the port is not OPEN with its command, a second rise without a fall, and a whole byte off a boundary
change nothing but the clock. That a REAP in STRAP_FAULT reads nothing is assumption log 29 (DEDUCED). -/
def Obligations.HostBytesAreExchanged : Prop :=
  (∀ (c : HostCommand) (dt : Nat) (b : Byte) (s : State) (r : OpeningReadings),
    s.port.state = .opened → s.port.command = some c → s.port.opening = some r → betweenBytes s →
    c ≠ .post → c ≠ .peer → c ≠ .cancel →
    exec (hostRow c dt (.byte b)) s = .next
      { s.advance dt with
        port := { s.port with returned := s.port.returned ++ [dataByte s r c s.port.returned.length] } }) ∧
  (∀ (c : HostCommand) (dt : Nat) (m : Bool) (s u : State), s.port.state = .opened → s.port.command = some c →
    u = s.advance dt →
    (s.port.sckHigh = false → s.port.bitsIn.length < 7 → exec (hostRow c dt (.rise m)) s = .next
      { u with port := { s.port with bitsIn := s.port.bitsIn ++ [m], sckHigh := true } }) ∧
    (∀ b t, s.port.sckHigh = false → s.port.bitsIn ++ [m] = bitsOf b →
      exec (hostRow c dt (.byte b)) { s with port := { s.port with bitsIn := [] } } = .next t →
      exec (hostRow c dt (.rise m)) s = .next { t with port := { t.port with sckHigh := true } }) ∧
    exec (hostRow c dt .fall) s = .next { u with port := { s.port with sckHigh := false } } ∧
    (s.port.sckHigh = true → exec (hostRow c dt (.rise m)) s = .next u) ∧
    (∀ b, ¬ betweenBytes s → exec (hostRow c dt (.byte b)) s = .next u)) ∧
  (∀ (c : HostCommand) (s : State) (r : OpeningReadings), s.port.opening = some r → s.port.sckHigh = false →
    (s.port.state ≠ .opened → s.misoBit = none) ∧
    (s.port.state = .opened → s.port.command = none →
      s.misoBit = some (r.summary.getLsbD (7 - s.port.bitsIn.length))) ∧
    (s.port.state = .opened → s.port.command = some c →
      s.misoBit = some ((dataByte s r c s.port.returned.length).getLsbD (7 - s.port.bitsIn.length))) ∧
    ∀ (dt : Nat) (m : Bool) (t : State), s.port.state = .opened → s.port.bitsIn.length < 8 →
      (s.port.command = none ∧ exec (.commandDecode dt (.rise m)) s = .next t ∨
        s.port.command = some c ∧ exec (hostRow c dt (.rise m)) s = .next t) →
      t.misoBit = s.misoBit) ∧
  (∀ (c : HostCommand) (dt : Nat) (p : HostPhase) (s : State),
    ¬ (s.port.state = .opened ∧ s.port.command = some c) → exec (hostRow c dt p) s = .next (s.advance dt))

/-- The bytes of POST, PEER and CANCEL: each takes its parameters from byte 1 on, three, one and one of them (R157, R164);
PEER's parameter is judged against S and H and its snapshot taken when it is taken (R170). What follows them is ignored
(R157): PEER returns the peer block in bytes 2 to 7, and CANCEL and POST return 00h from byte 2; of a POST the bytes 4 to
L + 3 are staged, when the length L is 1 to 120, outside STRAP_FAULT (R164). That a payload byte may be sent as the byte
step of POST is the model's form (assumption log 28, DESIGN CHOICE). -/
def Obligations.ParameterBytesAreTaken : Prop :=
  (∀ (c : HostCommand) (n dt : Nat) (b : Byte) (s u : State) (r : OpeningReadings),
    (c = .post ∧ n = 3 ∨ c = .peer ∧ n = 1 ∨ c = .cancel ∧ n = 1) →
    s.port.state = .opened → s.port.command = some c → s.port.opening = some r → betweenBytes s →
    u = s.advance dt →
    (s.port.params.length < n →
      exec (hostRow c dt (.byte b)) s = .next
        { u with
          port := { s.port with
            returned := s.port.returned ++ [dataByte s r c s.port.returned.length],
            params := s.port.params ++ [b],
            peerSnapshot :=
              if c = .peer ∧ b.toNat ≠ s.straps.own ∧ b.toNat ≤ s.straps.highest ∧ b.toNat ≤ 30 then
                some (s.peerSnapshot b.toNat)
              else s.port.peerSnapshot } }) ∧
    (n ≤ s.port.params.length → c ≠ .post →
      exec (hostRow c dt (.byte b)) s = .next
        { u with
          port := { s.port with returned := s.port.returned ++ [dataByte s r c s.port.returned.length] } })) ∧
  (∀ (dt : Nat) (b p0 p1 p2 : Byte) (s u : State) (staged : Prop), s.port.state = .opened →
    s.port.command = some .post → betweenBytes s → s.port.params = [p0, p1, p2] →
    2 ≤ s.port.returned.length → u = s.advance dt →
    (staged ↔ s.rot.station ≠ .strapFault ∧ 1 ≤ p2.toNat ∧ p2.toNat ≤ 120 ∧ 4 ≤ s.port.returned.length ∧
      s.port.returned.length < 4 + p2.toNat) →
    (staged → exec (.post dt (.byte b)) s = .next
      { u with
        port := { s.port with
          returned := s.port.returned ++ [0]
          staging := if s.port.returned.length = 4 then [b] else s.port.staging ++ [b] } }) ∧
    (¬ staged → exec (.post dt (.byte b)) s = .next
      { u with port := { s.port with returned := s.port.returned ++ [0] } }))

/-- POST_PAYLOAD_BYTE of a POST whose length is 1 to 120, outside STRAP_FAULT, at bytes 4 to L + 3: the byte is staged at its
payload position, the first one starting the staged count from 0, and 00h is returned (R164). Past those bytes and in
STRAP_FAULT nothing is staged (R164); that such a report, and one off a byte boundary, changes nothing but the clock, not
even the byte index, is the model's choice (assumption logs 28 and 2, DESIGN CHOICE): such a byte is sent as the byte step
of POST. -/
def Obligations.PayloadBytesAreStaged : Prop :=
  ∀ (dt : Nat) (b p0 p1 p2 : Byte) (s u : State), s.port.state = .opened → s.port.command = some .post →
    s.port.params = [p0, p1, p2] → u = s.advance dt →
    (s.rot.station ≠ .strapFault → 1 ≤ p2.toNat → p2.toNat ≤ 120 → 4 ≤ s.port.returned.length →
      s.port.returned.length < 4 + p2.toNat → betweenBytes s →
      exec (.postPayloadByte dt b) s = .next
        { u with
          port := { s.port with
            returned := s.port.returned ++ [0]
            staging := if s.port.returned.length = 4 then [b] else s.port.staging ++ [b] } }) ∧
    (s.rot.station = .strapFault ∨ p2.toNat = 0 ∨ 120 < p2.toNat ∨ 4 + p2.toNat ≤ s.port.returned.length ∨
        ¬ betweenBytes s →
      exec (.postPayloadByte dt b) s = .next u)

/-- The peer snapshot (R82): every field of the entry as it stands, with the tag of the entry that its reference names and
that entry's place in the transmit queue counted from 1, and 0 for both when there is none.
The close of a PEER, in every station state (R170): INCOMPLETE without its parameter, OK when a snapshot was taken,
INVALID otherwise; nothing but the port changes. -/
def Obligations.PeerShowsTheEntry : Prop :=
  (∀ (s : State) (n : Nat) (p : PeerEntry), s.peers[n]? = some p →
    (s.peerSnapshot n).station = n ∧ (s.peerSnapshot n).txSeq = p.txSeq ∧
    (s.peerSnapshot n).refreshDue = p.refreshDue ∧ (s.peerSnapshot n).rxExpect = p.rxExpect ∧
    (s.peerSnapshot n).rxLastFresh = p.rxLastFresh ∧ (s.peerSnapshot n).lastOutcome = p.lastOutcome ∧
    (p.outstanding = none → (s.peerSnapshot n).present = false ∧ (s.peerSnapshot n).tag = 0 ∧
      (s.peerSnapshot n).position = 0) ∧
    (∀ (ref i : Nat) (e : TxEntry), p.outstanding = some ref → s.txq[i]? = some e → e.ref = ref →
      (∀ (j : Nat) (x : TxEntry), j < i → s.txq[j]? = some x → x.ref ≠ ref) →
      (s.peerSnapshot n).present = true ∧ (s.peerSnapshot n).tag = e.tag ∧ (s.peerSnapshot n).position = i + 1)) ∧
  (∀ (dt : Nat) (s u : State), s.port.state = .opened → s.port.command = some .peer → u = s.advance dt →
    exec (.peer dt .close) s = .next
      (u.closedWith (if s.port.params = [] then .incomplete
        else if s.port.peerSnapshot = none then .invalid else .ok)))

/-- The close of a POST (R158, R165) judged by the five checks of R104 in their order; on OK the entry is appended WAITING
with the lowest-numbered FREE blocks, filled from the staging buffer (R105, R130, R131), and with every other result nothing
but the last result changes. That the new entry's return state is WAITING is the model's choice (assumption log 33, DESIGN
CHOICE). -/
def Obligations.PostIsJudgedAtItsClose : Prop :=
  ∀ (dt : Nat) (s u : State) (dest len : Nat) (complete : Prop), s.port.state = .opened →
    s.port.command = some .post → u = s.advance dt →
    dest = (s.port.params.getD 0 0).toNat → len = (s.port.params.getD 2 0).toNat →
    (complete ↔ s.port.params.length = 3 ∧ (1 ≤ len → len ≤ 120 → 4 + len ≤ s.port.returned.length)) →
    (s.rot.station = .strapFault → exec (.post dt .close) s = .next (u.closedWith .wrongState)) ∧
    (s.rot.station ≠ .strapFault → ¬ complete → exec (.post dt .close) s = .next (u.closedWith .incomplete)) ∧
    (s.rot.station ≠ .strapFault → complete →
      (dest = s.straps.own ∨ dest ≠ 31 ∧ s.straps.highest < dest ∨ len = 0 ∨ 120 < len →
        exec (.post dt .close) s = .next (u.closedWith .invalid)) ∧
      (dest ≠ s.straps.own → dest = 31 ∨ dest ≤ s.straps.highest → 1 ≤ len → len ≤ 120 →
        (16 ≤ s.txq.length + s.compq.length → exec (.post dt .close) s = .next (u.closedWith .full)) ∧
        (s.txq.length + s.compq.length < 16 → s.pool.freeCount < (len + 15) / 16 + 8 →
          exec (.post dt .close) s = .next (u.closedWith .noRoom)) ∧
        (s.txq.length + s.compq.length < 16 → (len + 15) / 16 + 8 ≤ s.pool.freeCount →
          ∃ t blocks, exec (.post dt .close) s = .next t ∧ blocks = s.pool.freeBlocks.take ((len + 15) / 16) ∧
            t = { u.closedWith .ok with
                  pool := s.pool.claim blocks (.transmit s.nextRef) s.port.staging
                  txq := s.txq ++
                    [{ ref := s.nextRef, tag := s.port.params.getD 1 0, dest := dest, length := len,
                       blocks := blocks, state := .waiting, returnState := .waiting, attempts := 0,
                       busyAnswers := 0, attemptedEver := false, cancelPending := false }]
                  nextRef := s.nextRef + 1 } ∧
            t.pool.freeCount + (len + 15) / 16 = s.pool.freeCount ∧
            (∀ a, a / 16 ∉ blocks → readCell t.pool.cells a = readCell s.pool.cells a) ∧
            (cellsWf s.pool.cells → s.port.staging.length = len → ∀ k, k < len →
              payloadByte t.pool.cells blocks k = s.port.staging.getD k 0))))

/-- The close of a TAKE (R149, R150, R166): EMPTY when the queue was empty at the opening; OK, the head record gone and its
blocks FREE, once L + 6 bytes were clocked out; INCOMPLETE, and nothing else changed, when fewer were. -/
def Obligations.TakeRemovesAWholeRead : Prop :=
  ∀ (dt : Nat) (s u : State) (r : OpeningReadings), s.port.state = .opened → s.port.command = some .take →
    s.port.opening = some r → s.rot.station ≠ .strapFault → u = s.advance dt →
    (r.receiveHead = none → exec (.take dt .close) s = .next (u.closedWith .empty)) ∧
    (∀ h, r.receiveHead = some h → s.port.returned.length < h.length + 6 →
      exec (.take dt .close) s = .next (u.closedWith .incomplete)) ∧
    (∀ h rest, r.receiveHead = some h → h.length + 6 ≤ s.port.returned.length → s.rxq.records = h :: rest →
      exec (.take dt .close) s = .next
        { u.closedWith .ok with
          rxq := { s.rxq with records := rest }, pool := s.pool.release (.receive h.ref) })

/-- The close of a REAP (R119, R167): EMPTY when the completion queue was empty at the opening; OK and the head record gone
once its five bytes were clocked out; INCOMPLETE, and nothing else changed, when fewer were. -/
def Obligations.ReapRemovesAWholeRead : Prop :=
  ∀ (dt : Nat) (s u : State) (r : OpeningReadings), s.port.state = .opened → s.port.command = some .reap →
    s.port.opening = some r → s.rot.station ≠ .strapFault → u = s.advance dt →
    (r.completionHead = none → exec (.reap dt .close) s = .next (u.closedWith .empty)) ∧
    (∀ h, r.completionHead = some h → s.port.returned.length < 7 →
      exec (.reap dt .close) s = .next (u.closedWith .incomplete)) ∧
    (∀ h rest, r.completionHead = some h → 7 ≤ s.port.returned.length → s.compq = h :: rest →
      exec (.reap dt .close) s = .next { u.closedWith .ok with compq := rest })

/-- The close of a STATUS, in every station state (R168, R169): read whole it gives OK and clears the change flag unless a set
was taken since the opening; read short it gives INCOMPLETE and leaves the flag. -/
def Obligations.StatusClearsTheChangeFlag : Prop :=
  ∀ (dt : Nat) (s u : State), s.port.state = .opened → s.port.command = some .status → u = s.advance dt →
    (18 ≤ s.port.returned.length → s.rot.setSinceSnapshot = false →
      exec (.status dt .close) s = .next { u.closedWith .ok with rot := { s.rot with changeFlag := false } }) ∧
    (18 ≤ s.port.returned.length → s.rot.setSinceSnapshot = true →
      exec (.status dt .close) s = .next (u.closedWith .ok)) ∧
    (s.port.returned.length < 18 → exec (.status dt .close) s = .next (u.closedWith .incomplete))

/-- The close of a CANCEL (R121, R171), on the oldest entry with its tag: NOT_FOUND without one; DEFERRED with cancel_pending
set when it is IN_FLIGHT; otherwise OK and concluded at once, CANCELLED_AFTER_ATTEMPT with a refresh when it was ever
attempted and CANCELLED when it was not. -/
def Obligations.CancelActsOnTheOldestWithItsTag : Prop :=
  ∀ (dt : Nat) (s u : State) (tag : Byte) (more : List Byte), s.port.state = .opened →
    s.port.command = some .cancel → s.rot.station ≠ .strapFault → u = s.advance dt →
    (s.port.params = [] → exec (.cancel dt .close) s = .next (u.closedWith .incomplete)) ∧
    (s.port.params = tag :: more → findTag s.txq tag = none →
      exec (.cancel dt .close) s = .next (u.closedWith .notFound)) ∧
    (∀ e, s.port.params = tag :: more → findTag s.txq tag = some e → findEntry s.txq e.ref = some e →
      (e.state = .inFlight → exec (.cancel dt .close) s = .next
        { u.closedWith .deferred with txq := updateEntry s.txq e.ref fun x => { x with cancelPending := true } }) ∧
      (e.state ≠ .inFlight → e.attemptedEver = true → e.isCast = false →
        exec (.cancel dt .close) s = .next
          (concludedWith (u.closedWith .ok) e .cancelledAfterAttempt e.attempts e.busyAnswers refreshed)) ∧
      (e.state ≠ .inFlight → e.attemptedEver = false → ∃ t, exec (.cancel dt .close) s = .next t ∧
        t = { u.closedWith .ok with
              txq := removeEntry s.txq e.ref
              pool := s.pool.release (.transmit e.ref)
              compq := s.compq ++
                [{ tag := e.tag, dest := e.dest, outcome := .cancelled, attempts := e.attempts,
                   busyAnswers := e.busyAnswers }]
              peers := t.peers } ∧
        (e.isCast = true → t.peers = s.peers) ∧
        (e.isCast = false → t.peers = s.peers.modify e.dest fun p =>
          { p with outstanding := if p.outstanding = some e.ref then none else p.outstanding })))

/-- The claims of a cancel that concludes a DATA entry (R116, R121, R125): of one ever attempted a refresh, with
CANCELLED_AFTER_ATTEMPT as last_outcome, and of one never attempted neither; its reference is cleared. -/
def cancelClaims (e : TxEntry) (p : PeerEntry) : PeerEntry :=
  { p with
    txSeq := if e.attemptedEver = true then p.txSeq + 1 else p.txSeq
    refreshDue := if e.attemptedEver = true then true else p.refreshDue
    outstanding := if p.outstanding = some e.ref then none else p.outstanding
    lastOutcome := if e.attemptedEver = true then some .cancelledAfterAttempt else p.lastOutcome }

/-- The close of a FLUSH (R125): every entry not IN_FLIGHT is concluded at once, in the order of the queue, one record each,
its blocks freed and its claims made on its peer (R116, R70, R74); the entry IN_FLIGHT stays with cancel_pending set, and
the result is DEFERRED if there is one and OK otherwise. -/
def Obligations.FlushCancelsEveryEntry : Prop :=
  ∀ (dt : Nat) (s u : State), s.port.state = .opened → s.port.command = some .flush →
    s.rot.station ≠ .strapFault → (s.txq.map (·.ref)).Nodup → u = s.advance dt →
    ∃ t, exec (.flush dt .close) s = .next t ∧
      t = { u.closedWith (if s.txq.any (fun e => e.state == .inFlight) then .deferred else .ok) with
            txq := (s.txq.filter fun e => e.state == .inFlight).map fun e => { e with cancelPending := true }
            compq := s.compq ++ (s.txq.filter fun e => e.state != .inFlight).map fun e =>
              { tag := e.tag, dest := e.dest,
                outcome := if e.attemptedEver = true then .cancelledAfterAttempt else .cancelled,
                attempts := e.attempts, busyAnswers := e.busyAnswers }
            pool := t.pool
            peers := (s.txq.filter fun e => e.state != .inFlight && e.dest != 31).foldl
              (fun ps e => ps.modify e.dest (cancelClaims e)) s.peers } ∧
      t.pool.cells = s.pool.cells ∧
      (∀ b : Nat, t.pool.holders[b]? = (s.pool.holders[b]?).map fun h =>
        if ∃ e ∈ s.txq, e.state ≠ .inFlight ∧ h = .transmit e.ref then .free else h)

/-- The close of a LEAVE (R60, R172): WRONG_STATE in WITHDRAWN; between activities OK, WITHDRAWN with cause REQUEST and the
change flag set; otherwise DEFERRED with leaving-pending set.
The close of a REJOIN (R62, R173): in WITHDRAWN the station returns to LISTEN with fault count 0, the change flag set and
the LISTEN entry instant recorded, OK; in LISTEN and ACTIVE WRONG_STATE. -/
def Obligations.LeaveAndRejoin : Prop :=
  (∀ (dt : Nat) (s u : State), s.port.state = .opened → s.port.command = some .leave → u = s.advance dt →
    (s.rot.station = .withdrawn → exec (.leave dt .close) s = .next (u.closedWith .wrongState)) ∧
    (s.rot.station = .listen ∨ s.rot.station = .active →
      (s.rot.ownFrame = false ∧ s.rot.answerWatch = false ∧ s.rot.answer = false →
        exec (.leave dt .close) s = .next
          { u.closedWith .ok with
            rot := { s.rot with
              station := .withdrawn, cause := .request, anchored := false, position := .unplaced, tracked := none,
              marker := false, leaving := false, changeFlag := true, setSinceSnapshot := true } }) ∧
      (s.rot.ownFrame = true ∨ s.rot.answerWatch = true ∨ s.rot.answer = true →
        exec (.leave dt .close) s = .next
          { u.closedWith .deferred with rot := { s.rot with leaving := true } }))) ∧
  (∀ (dt : Nat) (s u : State), s.port.state = .opened → s.port.command = some .rejoin → u = s.advance dt →
    (s.rot.station = .withdrawn →
      exec (.rejoin dt .close) s = .next
        { u.closedWith .ok with
          rot := { s.rot with
            station := .listen, faultCount := 0, listenEntry := u.now, changeFlag := true,
            setSinceSnapshot := true } }) ∧
    (s.rot.station = .listen ∨ s.rot.station = .active →
      exec (.rejoin dt .close) s = .next (u.closedWith .wrongState)))

/-- The close of a RESTART (R174): every block but the strap latch takes its RESTART values, the change flag is set, the last
result is OK, the contents of the blocks stay; an IDLE driver resets receiver and quiet timer at once, and a DRIVING or
FINISHING one is left or stands in FINISHING, its emitter with it unless that is IDLE, the receiver and the quiet timer
reset only when FINISHING ends (R16, R37). The values in the emptied items and the instants (last dominant, base time, those
of the assembler) are the model's choice (assumption log 16, DESIGN CHOICE); the RESTART of a FINISHING driver is assumption
log 21 (DEDUCED). At the instant at which a stop cell ends with a next character presented, the driver begins that character
before the RESTART is taken, which lets it finish: the model's choice (assumption log 31, DESIGN CHOICE). -/
def Obligations.RestartResetsAllButTheStraps : Prop :=
  ∀ (dt : Nat) (s u : State), s.port.state = .opened → s.port.command = some .restart →
    s.rot.station ≠ .strapFault → u = s.advance dt →
    ∃ t, exec (.restart dt .close) s = .next t ∧
      t = { State.reset with
            now := u.now
            rstLow := s.rstLow
            straps := s.straps
            quiet := t.quiet
            rx := t.rx
            driver := t.driver
            em := { Emitter.init with
              cond := if u.driver.cond = .idle ∨ s.em.cond = .idle then .idle else .finishing }
            rot := { State.reset.rot with listenEntry := u.now, changeFlag := true, setSinceSnapshot := true }
            pool := { holders := List.replicate 64 .free, cells := s.pool.cells }
            pending := s.pending } ∧
      (u.driver.cond = .idle → t.driver = u.driver ∧ t.rx = Receiver.init ∧
        t.quiet = { elapsed := 0, lastDominant := u.now, since := u.now }) ∧
      (u.driver.cond = .driving → t.driver = { u.driver with cond := .finishing, next := none } ∧ t.rx = s.rx ∧
        t.quiet = u.quiet) ∧
      (u.driver.cond = .finishing → t.driver = u.driver ∧ t.rx = s.rx ∧ t.quiet = u.quiet)

/-- The closes of NOP and of UNKNOWN_COMMAND, in every station state: NOP sets no result and UNKNOWN_COMMAND sets its own;
neither touches any other block (R158, R163, R175).
In STRAP_FAULT every command but NOP, STATUS, PEER and UNKNOWN is refused at its close with WRONG_STATE, whether or not it
carried its parameters, and presents nothing to any block (R175). -/
def Obligations.ClosesWithoutEffect : Prop :=
  (∀ (dt : Nat) (s u : State), s.port.state = .opened → u = s.advance dt →
    (s.port.command = some .nop → exec (.nop dt .close) s = .next (u.closedWith s.port.lastResult)) ∧
    (s.port.command = some .unknown → exec (.unknownCommand dt .close) s = .next (u.closedWith .unknownCommand))) ∧
  (∀ (c : HostCommand) (dt : Nat) (s : State), s.rot.station = .strapFault → s.port.state = .opened →
    s.port.command = some c → c ≠ .nop → c ≠ .status → c ≠ .peer → c ≠ .unknown →
    exec (hostRow c dt .close) s = .next ((s.advance dt).closedWith .wrongState))

/-! ## Laws of the whole device -/

/-- Every step keeps the quiet timer at the number of samples passed after the last dominant sample, held at 65535, while the
line interface runs, and at 0 while it does not (R10). At an instant it shows the samples before that instant (assumption log
27, DESIGN CHOICE), and after a reset those from the reset instant on, which the model sets as the last-dominant instant
(assumption log 16, DESIGN CHOICE). -/
def Obligations.EveryStepKeepsTheQuietLaw : Prop :=
  ∀ s t : State, s.quietLaw → step s = .next t → t.quietLaw

/-- Every step keeps the laws of the rotation controller: anchored exactly while ACTIVE with B in 0 to H (R38), the fault
count in 0 to 8 and 8 only in WITHDRAWN (R57), leaving-pending only with an activity in progress (R60, R61). -/
def Obligations.EveryStepKeepsTheRotationLaw : Prop :=
  ∀ s t : State, s.rotationLaw → step s = .next t → t.rotationLaw

/-- Every step keeps the limits of the queues: 16 places shared by entries and completion records (R107), 24 receive records
(R141).
Every step keeps the counts in their ranges (R63, R10, R144, R145). -/
def Obligations.EveryStepKeepsTheLimits : Prop :=
  (∀ s t : State, s.queueLimits → step s = .next t → t.queueLimits) ∧
  (∀ s t : State, s.countersLaw → step s = .next t → t.countersLaw)

/-- Every step keeps each block with one holder, each entry and record with exactly its own blocks, and so the free blocks,
the blocks of transmit entries and the blocks of receive records at 64 together (R129). -/
def Obligations.EveryStepKeepsTheBlocksAccounted : Prop :=
  ∀ s t : State, s.poolLaw → step s = .next t → t.poolLaw ∧ t.blocksAccounted = 64

/-- Every step keeps at most the head of the transmit queue OUTSTANDING or IN_FLIGHT (R108).
Every step keeps the peer table's references: each names a DATA entry to that peer that is OUTSTANDING or IN_FLIGHT, and each
such entry is named (R74); and rx_last_fresh false while rx_expect is UNKNOWN (R77, note 2). The clauses of these laws on the
return state of an entry that waits, WAITING from its posting on, rest on the model's choice (assumption log 33, DESIGN
CHOICE). -/
def Obligations.EveryStepKeepsTheHeadLaw : Prop :=
  (∀ s t : State, s.headLaw → step s = .next t →
    t.headLaw ∧ (t.txq.filter fun e => e.state != .waiting).length ≤ 1) ∧
  (∀ s t : State, s.headLaw → s.peerLaw → step s = .next t → t.peerLaw)

/-- Every step keeps the block contents in canonical form (the model's form of memory, assumption log 5). -/
def Obligations.EveryStepKeepsTheCellsCanonical : Prop :=
  ∀ s t : State, s.cellsLaw → step s = .next t → t.cellsLaw

/-- While a block keeps its holder its contents are not altered (R130): a block that some entry or record holds before a
command and after it reads byte for byte as before, whatever the command.
Only the acceptance of a POST and the record made at a frame end fill blocks (R130): every other command leaves every
byte of the pool as it was. -/
def Obligations.BlockContentsAreKept : Prop :=
  (∀ (c : Instr) (s t : State) (b j : Nat) (h : Holder), exec c s = .next t → h ≠ .free → j < 16 →
    s.pool.holders[b]? = some h → t.pool.holders[b]? = some h →
    readCell t.pool.cells (16 * b + j) = readCell s.pool.cells (16 * b + j)) ∧
  (∀ (c : Instr) (s t : State), exec c s = .next t → (∀ r f, c ≠ .characterDelivered r f) →
    (∀ dt, c ≠ .post dt .close) → ∀ a, readCell t.pool.cells a = readCell s.pool.cells a)

/-- RSTN_RELEASE with RSTn low, a PIN_RESET, and the close of a RESTART outside STRAP_FAULT: the resets of every block
(R3, R174). -/
def resets (c : Instr) (s : State) : Prop :=
  (∃ dt, c = .pinReset dt) ∨ (∃ dt a b r l, c = .rstnRelease dt a b r l ∧ s.rstLow = true) ∨
    ∃ dt, c = .restart dt .close ∧ s.port.state = .opened ∧ s.port.command = some .restart ∧
      s.rot.station ≠ .strapFault

/-- The close of a transaction of the given command, the result it gives being OK (R158). -/
def closesOk (c : Instr) (s t : State) (h : HostCommand) : Prop :=
  (∃ dt, c = hostRow h dt .close) ∧ s.port.state = .opened ∧ s.port.command = some h ∧ t.port.lastResult = .ok

/-- The commands that can close an answer watch with a result (R95, R96): a character or a glitch that settles the frame it
waits for, the truncation of that frame, and the window's end. -/
def endsAWatch (c : Instr) : Prop :=
  (∃ r f, c = .characterDelivered r f) ∨ (∃ r, c = .startGlitch r) ∨ c = .frameTruncation ∨ c = .watchWindowEnd

/-- The good frame `f` ends and is an ANSWER that matches the watched entry `e`, to station `k`, with code OUT_OF_STEP, and
the entry stays OUTSTANDING for a retry (R96, R101, R114). -/
def outOfStepRetried (c : Instr) (s t : State) (k : Nat) : Prop :=
  ∃ a b f w em h e, c = .characterDelivered a b ∧ endsGoodFrame s f ∧ s.watch = .holding w em h ∧ h.start = f.start ∧
    f.kind = .answer ∧ f.own = false ∧ f.sameNumber = false ∧ h.inTime = true ∧ f.sender = w.dest ∧
    f.dest = s.straps.own ∧ f.seq = w.seq ∧ f.code = .outOfStep ∧ findEntry s.txq w.entry = some e ∧
    e.state = .inFlight ∧ e.cancelPending = false ∧ e.attempts < 4 ∧ e.dest = k ∧ t.compq = s.compq ∧
    t.txq = updateEntry s.txq w.entry fun x => { x with state := .outstanding }

/-- The causes of a refresh of the peer entry of station `k`, one at a time (R70, R71): an OUT_OF_STEP answer that is
retried; a conclusion NO_ANSWER of a DATA to `k`, at its fourth attempt; and a cancel after an attempt, at the watch's end,
at a lost report, or at the close of a CANCEL. -/
def refreshCause (c : Instr) (s t : State) (k : Nat) : Prop :=
  outOfStepRetried c s t k ∨
  ∃ r, t.compq = s.compq ++ [r] ∧ r.dest = k ∧
    (r.outcome = .noAnswer ∧ 4 ≤ r.attempts ∧ endsAWatch c ∨
      r.outcome = .cancelledAfterAttempt ∧
        (s.headLaw → endsAWatch c ∨ (∃ cell tap, c = .loss cell tap ∨ c = .lineFault cell tap) ∨
          ∃ dt, c = .cancel dt .close))

/-- The budget count moves only as R107 says: up by one at the close of a POST with result OK, down by one at the close of a
REAP with result OK, which removes the head completion record, to 0 at the resets, and at no other command; conclusions,
cancels and flushes leave it.
The receive queue gains one record at the tail at a good frame's end, a CAST from another station or a DATA to this one
(R141, R88, R143), loses its head at the close of a TAKE with result OK (R150), is emptied by the resets (R153), and is
left as it was by every other command.
The tx_seq of a peer entry moves only as R70 says: by one, with refresh_due clear, at a DELIVERED conclusion to that peer,
which a good frame's end brings; by one, with refresh_due set, at a refresh, for one of its three causes, which the commands
named can bring; and at no other time but the resets. Each such conclusion moves it, and refresh_due moves with it alone (R69
to R72). Under the law of selection no other command applies a cancel to an entry that was attempted. The close of a FLUSH,
which may refresh more than one peer, is FlushCancelsEveryEntry's (R125). -/
def Obligations.QueuesMoveOnlyAtTheirEvents : Prop :=
  (∀ (c : Instr) (s t : State), exec c s = .next t →
    (resets c s → t.txq = [] ∧ t.compq = [] ∧ t.rxq = { records := [], tally := 0 }) ∧
    (closesOk c s t .post → ∃ e, t.txq = s.txq ++ [e] ∧ t.compq = s.compq) ∧
    (closesOk c s t .reap → t.txq = s.txq ∧ t.compq = s.compq.tail) ∧
    (¬ resets c s → ¬ closesOk c s t .post → ¬ closesOk c s t .reap →
      t.txq.length + t.compq.length = s.txq.length + s.compq.length)) ∧
  (∀ (c : Instr) (s t : State), exec c s = .next t → ¬ resets c s →
    (∀ r f, c = .characterDelivered r f →
      t.rxq.records = s.rxq.records ∨
        ∃ f r, endsGoodFrame s f ∧ f.own = false ∧ f.sameNumber = false ∧
          (f.kind = .cast ∨ f.kind = .data ∧ f.dest = s.straps.own) ∧ r.source = f.sender ∧ r.length = f.length ∧
          (r.cls = .cast ↔ f.kind = .cast) ∧ t.rxq = { records := s.rxq.records ++ [r], tally := 0 }) ∧
    (closesOk c s t .take → t.rxq = { s.rxq with records := s.rxq.records.tail }) ∧
    ((∀ r f, c ≠ .characterDelivered r f) → ¬ closesOk c s t .take → t.rxq = s.rxq)) ∧
  (∀ (c : Instr) (s t : State) (k : Nat) (p : PeerEntry), exec c s = .next t → ¬ resets c s →
    (∀ dt, c ≠ .flush dt .close) → s.peers[k]? = some p →
    ∃ q, t.peers[k]? = some q ∧
      (q.txSeq = p.txSeq ∧ q.refreshDue = p.refreshDue ∨
        q.txSeq = p.txSeq + 1 ∧ q.refreshDue = true ∧ refreshCause c s t k ∨
        q.txSeq = p.txSeq + 1 ∧ q.refreshDue = false ∧ (∃ a b, c = .characterDelivered a b) ∧
          ∃ r, t.compq = s.compq ++ [r] ∧ r.outcome = .delivered ∧ r.dest = k) ∧
      (∀ r, k ≤ 30 → t.compq = s.compq ++ [r] → r.dest = k →
        (r.outcome = .delivered → q.txSeq = p.txSeq + 1 ∧ q.refreshDue = false) ∧
        (r.outcome = .noAnswer ∨ r.outcome = .cancelledAfterAttempt → q.txSeq = p.txSeq + 1 ∧ q.refreshDue = true)) ∧
      (outOfStepRetried c s t k → q.txSeq = p.txSeq + 1 ∧ q.refreshDue = true))

/-- The driver goes on with the character it was driving, or with the one presented after it, at the end of a stop cell
compared (R11). -/
def drivesOn (s t : State) : Prop :=
  s.driver.cond = .driving ∧
  (t.driver.charStart = s.driver.charStart ∧ t.driver.char = s.driver.char ∨
    s.driver.sent = true ∧ s.driver.next = some t.driver.char ∧ t.driver.charStart = s.driver.charStart + 176)

/-- The station drives the line only in a frame that it began at the start of one of its own slots while ACTIVE and not
leaving with the line idle, or in an ANSWER that it began at the window start of a pending answer with the line idle (R52,
R90): after any command a driver that is DRIVING goes on in the frame it was in, or has begun one so at that instant,
whatever it did before the command, a last stop cell compared included. -/
def Obligations.TheDriverStartsOnlyInItsTurn : Prop :=
  ∀ (c : Instr) (s t : State), exec c s = .next t → t.driver.cond = .driving →
    drivesOn s t ∨
    (c = .slotStart ∧ s.rot.station = .active ∧ s.rot.position = .slot ∧ s.rot.leaving = false ∧
      (s.rot.base + t.rot.slotIndex) % (s.straps.highest + 1) = s.straps.own ∧
      t.rot.slotIndex ≤ s.straps.highest ∧ s.asm.cond = .idle ∧ s.rx.cond ≠ .receiving ∧
      64 ≤ t.quiet.elapsed ∧ (∃ e, offer s.txq = some e) ∧ t.driver.charStart = t.now) ∨
    (c = .answerWindowStart ∧ (∃ p, s.pend = some p ∧ p.phase = .due ∧ t.now = p.windowStart) ∧
      s.asm.cond = .idle ∧ s.rx.cond ≠ .receiving ∧ 64 ≤ t.quiet.elapsed ∧ t.driver.charStart = t.now)

/-- A frame that one station emits is the frame that another assembles (R18, R20, R23, R26, R29): the bytes of a well-formed
DATA frame, taken back to back from an IDLE assembler, give a good-frame notice with every field as sent.
The same of a CAST frame and of an ANSWER frame (R18, R20, R23, R26, R29). -/
def Obligations.FramesAreAssembledAsSent : Prop :=
  (∀ (own h sender dest start : Nat) (seq : Seq) (fresh driven : Bool) (payload : List Byte) (a : Assembler),
    a.cond = .idle → sender ≤ h → h ≤ 30 → dest ≤ 30 → 1 ≤ payload.length → payload.length ≤ 120 →
    ∃ f, (assembleAll own h a .quiet
        (receivedChars (frameBytes (dataHeader sender seq dest fresh payload.length) payload) start driven)).2 =
        .good f ∧
      f.kind = .data ∧ f.sender = sender ∧ f.dest = dest ∧ f.seq = seq ∧ f.fresh = fresh ∧
      f.length = payload.length ∧ f.payload = payload ∧ f.start = start ∧ f.own = driven ∧
      f.fin = start + 176 * (payload.length + 5) - 7 ∧ (f.sameNumber = true ↔ sender = own ∧ driven = false)) ∧
  ((∀ (own h sender start : Nat) (driven : Bool) (payload : List Byte) (a : Assembler),
    a.cond = .idle → sender ≤ h → h ≤ 30 → 1 ≤ payload.length → payload.length ≤ 120 →
    ∃ f, (assembleAll own h a .quiet
        (receivedChars (frameBytes (castHeader sender payload.length) payload) start driven)).2 = .good f ∧
      f.kind = .cast ∧ f.sender = sender ∧ f.dest = 31 ∧ f.seq = 0 ∧ f.length = payload.length ∧
      f.payload = payload ∧ f.start = start ∧ f.own = driven ∧
      f.fin = start + 176 * (payload.length + 5) - 7) ∧
  (∀ (own h answerer dest start : Nat) (seq : Seq) (code : AnswerCode) (driven : Bool) (a : Assembler),
    a.cond = .idle → answerer ≤ h → h ≤ 30 → dest ≤ 31 →
    ∃ f, (assembleAll own h a .quiet
        (receivedChars (frameBytes (answerHeader answerer seq dest code) []) start driven)).2 = .good f ∧
      f.kind = .answer ∧ f.sender = answerer ∧ f.dest = dest ∧ f.seq = seq ∧ f.code = code ∧ f.start = start ∧
      f.own = driven ∧ f.fin = start + 873))

/-- An emitter places the characters of the frame (R34): header, payload from its blocks, CRC high byte and CRC low byte,
edge bit 1 on the first alone.
The CRC (R20): the register starts at FFFFh and takes each covered byte in order, most significant bit first; for each bit it
is shifted left by one place, and, when its top bit and the incoming bit differed, exclusive-ORed with 1021h. The two CRC
characters are its high byte and then its low byte. -/
def Obligations.EmittersPlaceTheFrameBytes : Prop :=
  (∀ (r : Crc) (bit : Bool),
    (crcBit r bit).toNat =
      if decide (32768 ≤ r.toNat) = bit then 2 * r.toNat % 65536 else (2 * r.toNat % 65536) ^^^ 0x1021) ∧
  (∀ (r : Crc) (b : Byte) (n : Nat → Bool), (∀ i, n i = decide (b.toNat / 2 ^ i % 2 = 1)) →
    crcByte r b =
      crcBit (crcBit (crcBit (crcBit (crcBit (crcBit (crcBit (crcBit r (n 7)) (n 6)) (n 5)) (n 4)) (n 3)) (n 2)) (n 1))
        (n 0)) ∧
  (crcOf [] = 0xFFFF ∧ ∀ (bytes : List Byte) (b : Byte), crcOf (bytes ++ [b]) = crcByte (crcOf bytes) b) ∧
  (∀ header payload : List Byte, ∃ high low : Byte, frameBytes header payload = header ++ payload ++ [high, low] ∧
    256 * high.toNat + low.toNat = (crcOf (header ++ payload)).toNat) ∧
  (∀ r : Crc, 256 * (crcHigh r).toNat + (crcLow r).toNat = r.toNat) ∧
  ∀ (src : FrameSource) (header : List Byte) (blocks : List Nat) (len t : Nat) (cells : List Host.Cell),
    header.length = 3 →
    placedChars (Emitter.begin src header blocks len t) cells 0 (len + 5) =
      (frameBytes header (heldPayload cells blocks len)).mapIdx fun k b => { data := b, edge := decide (k = 0) }
end

