-- ==== Sys2Proof/Laws/State.lean ====
section
/-! SUPPORT. One lemma per field for each replacement of a block of the state. -/

namespace Sys2Proof.Machine

section
variable (s : State) (v : QuietTimer)

@[simp] theorem State.setQuiet_now : (s.setQuiet v).now = s.now := rfl
@[simp] theorem State.setQuiet_rstLow : (s.setQuiet v).rstLow = s.rstLow := rfl
@[simp] theorem State.setQuiet_straps : (s.setQuiet v).straps = s.straps := rfl
@[simp] theorem State.setQuiet_quiet : (s.setQuiet v).quiet = v := rfl
@[simp] theorem State.setQuiet_rx : (s.setQuiet v).rx = s.rx := rfl
@[simp] theorem State.setQuiet_driver : (s.setQuiet v).driver = s.driver := rfl
@[simp] theorem State.setQuiet_asm : (s.setQuiet v).asm = s.asm := rfl
@[simp] theorem State.setQuiet_em : (s.setQuiet v).em = s.em := rfl
@[simp] theorem State.setQuiet_rot : (s.setQuiet v).rot = s.rot := rfl
@[simp] theorem State.setQuiet_peers : (s.setQuiet v).peers = s.peers := rfl
@[simp] theorem State.setQuiet_pend : (s.setQuiet v).pend = s.pend := rfl
@[simp] theorem State.setQuiet_watch : (s.setQuiet v).watch = s.watch := rfl
@[simp] theorem State.setQuiet_txq : (s.setQuiet v).txq = s.txq := rfl
@[simp] theorem State.setQuiet_compq : (s.setQuiet v).compq = s.compq := rfl
@[simp] theorem State.setQuiet_pool : (s.setQuiet v).pool = s.pool := rfl
@[simp] theorem State.setQuiet_rxq : (s.setQuiet v).rxq = s.rxq := rfl
@[simp] theorem State.setQuiet_port : (s.setQuiet v).port = s.port := rfl
@[simp] theorem State.setQuiet_nextRef : (s.setQuiet v).nextRef = s.nextRef := rfl
@[simp] theorem State.setQuiet_pending : (s.setQuiet v).pending = s.pending := rfl

end

section
variable (s : State) (v : Receiver)

@[simp] theorem State.setRx_now : (s.setRx v).now = s.now := rfl
@[simp] theorem State.setRx_rstLow : (s.setRx v).rstLow = s.rstLow := rfl
@[simp] theorem State.setRx_straps : (s.setRx v).straps = s.straps := rfl
@[simp] theorem State.setRx_quiet : (s.setRx v).quiet = s.quiet := rfl
@[simp] theorem State.setRx_rx : (s.setRx v).rx = v := rfl
@[simp] theorem State.setRx_driver : (s.setRx v).driver = s.driver := rfl
@[simp] theorem State.setRx_asm : (s.setRx v).asm = s.asm := rfl
@[simp] theorem State.setRx_em : (s.setRx v).em = s.em := rfl
@[simp] theorem State.setRx_rot : (s.setRx v).rot = s.rot := rfl
@[simp] theorem State.setRx_peers : (s.setRx v).peers = s.peers := rfl
@[simp] theorem State.setRx_pend : (s.setRx v).pend = s.pend := rfl
@[simp] theorem State.setRx_watch : (s.setRx v).watch = s.watch := rfl
@[simp] theorem State.setRx_txq : (s.setRx v).txq = s.txq := rfl
@[simp] theorem State.setRx_compq : (s.setRx v).compq = s.compq := rfl
@[simp] theorem State.setRx_pool : (s.setRx v).pool = s.pool := rfl
@[simp] theorem State.setRx_rxq : (s.setRx v).rxq = s.rxq := rfl
@[simp] theorem State.setRx_port : (s.setRx v).port = s.port := rfl
@[simp] theorem State.setRx_nextRef : (s.setRx v).nextRef = s.nextRef := rfl
@[simp] theorem State.setRx_pending : (s.setRx v).pending = s.pending := rfl

end

section
variable (s : State) (v : Driver)

@[simp] theorem State.setDriver_now : (s.setDriver v).now = s.now := rfl
@[simp] theorem State.setDriver_rstLow : (s.setDriver v).rstLow = s.rstLow := rfl
@[simp] theorem State.setDriver_straps : (s.setDriver v).straps = s.straps := rfl
@[simp] theorem State.setDriver_quiet : (s.setDriver v).quiet = s.quiet := rfl
@[simp] theorem State.setDriver_rx : (s.setDriver v).rx = s.rx := rfl
@[simp] theorem State.setDriver_driver : (s.setDriver v).driver = v := rfl
@[simp] theorem State.setDriver_asm : (s.setDriver v).asm = s.asm := rfl
@[simp] theorem State.setDriver_em : (s.setDriver v).em = s.em := rfl
@[simp] theorem State.setDriver_rot : (s.setDriver v).rot = s.rot := rfl
@[simp] theorem State.setDriver_peers : (s.setDriver v).peers = s.peers := rfl
@[simp] theorem State.setDriver_pend : (s.setDriver v).pend = s.pend := rfl
@[simp] theorem State.setDriver_watch : (s.setDriver v).watch = s.watch := rfl
@[simp] theorem State.setDriver_txq : (s.setDriver v).txq = s.txq := rfl
@[simp] theorem State.setDriver_compq : (s.setDriver v).compq = s.compq := rfl
@[simp] theorem State.setDriver_pool : (s.setDriver v).pool = s.pool := rfl
@[simp] theorem State.setDriver_rxq : (s.setDriver v).rxq = s.rxq := rfl
@[simp] theorem State.setDriver_port : (s.setDriver v).port = s.port := rfl
@[simp] theorem State.setDriver_nextRef : (s.setDriver v).nextRef = s.nextRef := rfl
@[simp] theorem State.setDriver_pending : (s.setDriver v).pending = s.pending := rfl

end

section
variable (s : State) (v : Assembler)

@[simp] theorem State.setAsm_now : (s.setAsm v).now = s.now := rfl
@[simp] theorem State.setAsm_rstLow : (s.setAsm v).rstLow = s.rstLow := rfl
@[simp] theorem State.setAsm_straps : (s.setAsm v).straps = s.straps := rfl
@[simp] theorem State.setAsm_quiet : (s.setAsm v).quiet = s.quiet := rfl
@[simp] theorem State.setAsm_rx : (s.setAsm v).rx = s.rx := rfl
@[simp] theorem State.setAsm_driver : (s.setAsm v).driver = s.driver := rfl
@[simp] theorem State.setAsm_asm : (s.setAsm v).asm = v := rfl
@[simp] theorem State.setAsm_em : (s.setAsm v).em = s.em := rfl
@[simp] theorem State.setAsm_rot : (s.setAsm v).rot = s.rot := rfl
@[simp] theorem State.setAsm_peers : (s.setAsm v).peers = s.peers := rfl
@[simp] theorem State.setAsm_pend : (s.setAsm v).pend = s.pend := rfl
@[simp] theorem State.setAsm_watch : (s.setAsm v).watch = s.watch := rfl
@[simp] theorem State.setAsm_txq : (s.setAsm v).txq = s.txq := rfl
@[simp] theorem State.setAsm_compq : (s.setAsm v).compq = s.compq := rfl
@[simp] theorem State.setAsm_pool : (s.setAsm v).pool = s.pool := rfl
@[simp] theorem State.setAsm_rxq : (s.setAsm v).rxq = s.rxq := rfl
@[simp] theorem State.setAsm_port : (s.setAsm v).port = s.port := rfl
@[simp] theorem State.setAsm_nextRef : (s.setAsm v).nextRef = s.nextRef := rfl
@[simp] theorem State.setAsm_pending : (s.setAsm v).pending = s.pending := rfl

end

section
variable (s : State) (v : Emitter)

@[simp] theorem State.setEm_now : (s.setEm v).now = s.now := rfl
@[simp] theorem State.setEm_rstLow : (s.setEm v).rstLow = s.rstLow := rfl
@[simp] theorem State.setEm_straps : (s.setEm v).straps = s.straps := rfl
@[simp] theorem State.setEm_quiet : (s.setEm v).quiet = s.quiet := rfl
@[simp] theorem State.setEm_rx : (s.setEm v).rx = s.rx := rfl
@[simp] theorem State.setEm_driver : (s.setEm v).driver = s.driver := rfl
@[simp] theorem State.setEm_asm : (s.setEm v).asm = s.asm := rfl
@[simp] theorem State.setEm_em : (s.setEm v).em = v := rfl
@[simp] theorem State.setEm_rot : (s.setEm v).rot = s.rot := rfl
@[simp] theorem State.setEm_peers : (s.setEm v).peers = s.peers := rfl
@[simp] theorem State.setEm_pend : (s.setEm v).pend = s.pend := rfl
@[simp] theorem State.setEm_watch : (s.setEm v).watch = s.watch := rfl
@[simp] theorem State.setEm_txq : (s.setEm v).txq = s.txq := rfl
@[simp] theorem State.setEm_compq : (s.setEm v).compq = s.compq := rfl
@[simp] theorem State.setEm_pool : (s.setEm v).pool = s.pool := rfl
@[simp] theorem State.setEm_rxq : (s.setEm v).rxq = s.rxq := rfl
@[simp] theorem State.setEm_port : (s.setEm v).port = s.port := rfl
@[simp] theorem State.setEm_nextRef : (s.setEm v).nextRef = s.nextRef := rfl
@[simp] theorem State.setEm_pending : (s.setEm v).pending = s.pending := rfl

end

section
variable (s : State) (v : Rotation)

@[simp] theorem State.setRot_now : (s.setRot v).now = s.now := rfl
@[simp] theorem State.setRot_rstLow : (s.setRot v).rstLow = s.rstLow := rfl
@[simp] theorem State.setRot_straps : (s.setRot v).straps = s.straps := rfl
@[simp] theorem State.setRot_quiet : (s.setRot v).quiet = s.quiet := rfl
@[simp] theorem State.setRot_rx : (s.setRot v).rx = s.rx := rfl
@[simp] theorem State.setRot_driver : (s.setRot v).driver = s.driver := rfl
@[simp] theorem State.setRot_asm : (s.setRot v).asm = s.asm := rfl
@[simp] theorem State.setRot_em : (s.setRot v).em = s.em := rfl
@[simp] theorem State.setRot_rot : (s.setRot v).rot = v := rfl
@[simp] theorem State.setRot_peers : (s.setRot v).peers = s.peers := rfl
@[simp] theorem State.setRot_pend : (s.setRot v).pend = s.pend := rfl
@[simp] theorem State.setRot_watch : (s.setRot v).watch = s.watch := rfl
@[simp] theorem State.setRot_txq : (s.setRot v).txq = s.txq := rfl
@[simp] theorem State.setRot_compq : (s.setRot v).compq = s.compq := rfl
@[simp] theorem State.setRot_pool : (s.setRot v).pool = s.pool := rfl
@[simp] theorem State.setRot_rxq : (s.setRot v).rxq = s.rxq := rfl
@[simp] theorem State.setRot_port : (s.setRot v).port = s.port := rfl
@[simp] theorem State.setRot_nextRef : (s.setRot v).nextRef = s.nextRef := rfl
@[simp] theorem State.setRot_pending : (s.setRot v).pending = s.pending := rfl

end

section
variable (s : State) (v : List PeerEntry)

@[simp] theorem State.setPeers_now : (s.setPeers v).now = s.now := rfl
@[simp] theorem State.setPeers_rstLow : (s.setPeers v).rstLow = s.rstLow := rfl
@[simp] theorem State.setPeers_straps : (s.setPeers v).straps = s.straps := rfl
@[simp] theorem State.setPeers_quiet : (s.setPeers v).quiet = s.quiet := rfl
@[simp] theorem State.setPeers_rx : (s.setPeers v).rx = s.rx := rfl
@[simp] theorem State.setPeers_driver : (s.setPeers v).driver = s.driver := rfl
@[simp] theorem State.setPeers_asm : (s.setPeers v).asm = s.asm := rfl
@[simp] theorem State.setPeers_em : (s.setPeers v).em = s.em := rfl
@[simp] theorem State.setPeers_rot : (s.setPeers v).rot = s.rot := rfl
@[simp] theorem State.setPeers_peers : (s.setPeers v).peers = v := rfl
@[simp] theorem State.setPeers_pend : (s.setPeers v).pend = s.pend := rfl
@[simp] theorem State.setPeers_watch : (s.setPeers v).watch = s.watch := rfl
@[simp] theorem State.setPeers_txq : (s.setPeers v).txq = s.txq := rfl
@[simp] theorem State.setPeers_compq : (s.setPeers v).compq = s.compq := rfl
@[simp] theorem State.setPeers_pool : (s.setPeers v).pool = s.pool := rfl
@[simp] theorem State.setPeers_rxq : (s.setPeers v).rxq = s.rxq := rfl
@[simp] theorem State.setPeers_port : (s.setPeers v).port = s.port := rfl
@[simp] theorem State.setPeers_nextRef : (s.setPeers v).nextRef = s.nextRef := rfl
@[simp] theorem State.setPeers_pending : (s.setPeers v).pending = s.pending := rfl

end

section
variable (s : State) (v : Option PendingAnswer)

@[simp] theorem State.setPend_now : (s.setPend v).now = s.now := rfl
@[simp] theorem State.setPend_rstLow : (s.setPend v).rstLow = s.rstLow := rfl
@[simp] theorem State.setPend_straps : (s.setPend v).straps = s.straps := rfl
@[simp] theorem State.setPend_quiet : (s.setPend v).quiet = s.quiet := rfl
@[simp] theorem State.setPend_rx : (s.setPend v).rx = s.rx := rfl
@[simp] theorem State.setPend_driver : (s.setPend v).driver = s.driver := rfl
@[simp] theorem State.setPend_asm : (s.setPend v).asm = s.asm := rfl
@[simp] theorem State.setPend_em : (s.setPend v).em = s.em := rfl
@[simp] theorem State.setPend_rot : (s.setPend v).rot = s.rot := rfl
@[simp] theorem State.setPend_peers : (s.setPend v).peers = s.peers := rfl
@[simp] theorem State.setPend_pend : (s.setPend v).pend = v := rfl
@[simp] theorem State.setPend_watch : (s.setPend v).watch = s.watch := rfl
@[simp] theorem State.setPend_txq : (s.setPend v).txq = s.txq := rfl
@[simp] theorem State.setPend_compq : (s.setPend v).compq = s.compq := rfl
@[simp] theorem State.setPend_pool : (s.setPend v).pool = s.pool := rfl
@[simp] theorem State.setPend_rxq : (s.setPend v).rxq = s.rxq := rfl
@[simp] theorem State.setPend_port : (s.setPend v).port = s.port := rfl
@[simp] theorem State.setPend_nextRef : (s.setPend v).nextRef = s.nextRef := rfl
@[simp] theorem State.setPend_pending : (s.setPend v).pending = s.pending := rfl

end

section
variable (s : State) (v : Watch)

@[simp] theorem State.setWatch_now : (s.setWatch v).now = s.now := rfl
@[simp] theorem State.setWatch_rstLow : (s.setWatch v).rstLow = s.rstLow := rfl
@[simp] theorem State.setWatch_straps : (s.setWatch v).straps = s.straps := rfl
@[simp] theorem State.setWatch_quiet : (s.setWatch v).quiet = s.quiet := rfl
@[simp] theorem State.setWatch_rx : (s.setWatch v).rx = s.rx := rfl
@[simp] theorem State.setWatch_driver : (s.setWatch v).driver = s.driver := rfl
@[simp] theorem State.setWatch_asm : (s.setWatch v).asm = s.asm := rfl
@[simp] theorem State.setWatch_em : (s.setWatch v).em = s.em := rfl
@[simp] theorem State.setWatch_rot : (s.setWatch v).rot = s.rot := rfl
@[simp] theorem State.setWatch_peers : (s.setWatch v).peers = s.peers := rfl
@[simp] theorem State.setWatch_pend : (s.setWatch v).pend = s.pend := rfl
@[simp] theorem State.setWatch_watch : (s.setWatch v).watch = v := rfl
@[simp] theorem State.setWatch_txq : (s.setWatch v).txq = s.txq := rfl
@[simp] theorem State.setWatch_compq : (s.setWatch v).compq = s.compq := rfl
@[simp] theorem State.setWatch_pool : (s.setWatch v).pool = s.pool := rfl
@[simp] theorem State.setWatch_rxq : (s.setWatch v).rxq = s.rxq := rfl
@[simp] theorem State.setWatch_port : (s.setWatch v).port = s.port := rfl
@[simp] theorem State.setWatch_nextRef : (s.setWatch v).nextRef = s.nextRef := rfl
@[simp] theorem State.setWatch_pending : (s.setWatch v).pending = s.pending := rfl

end

section
variable (s : State) (v : List TxEntry)

@[simp] theorem State.setTxq_now : (s.setTxq v).now = s.now := rfl
@[simp] theorem State.setTxq_rstLow : (s.setTxq v).rstLow = s.rstLow := rfl
@[simp] theorem State.setTxq_straps : (s.setTxq v).straps = s.straps := rfl
@[simp] theorem State.setTxq_quiet : (s.setTxq v).quiet = s.quiet := rfl
@[simp] theorem State.setTxq_rx : (s.setTxq v).rx = s.rx := rfl
@[simp] theorem State.setTxq_driver : (s.setTxq v).driver = s.driver := rfl
@[simp] theorem State.setTxq_asm : (s.setTxq v).asm = s.asm := rfl
@[simp] theorem State.setTxq_em : (s.setTxq v).em = s.em := rfl
@[simp] theorem State.setTxq_rot : (s.setTxq v).rot = s.rot := rfl
@[simp] theorem State.setTxq_peers : (s.setTxq v).peers = s.peers := rfl
@[simp] theorem State.setTxq_pend : (s.setTxq v).pend = s.pend := rfl
@[simp] theorem State.setTxq_watch : (s.setTxq v).watch = s.watch := rfl
@[simp] theorem State.setTxq_txq : (s.setTxq v).txq = v := rfl
@[simp] theorem State.setTxq_compq : (s.setTxq v).compq = s.compq := rfl
@[simp] theorem State.setTxq_pool : (s.setTxq v).pool = s.pool := rfl
@[simp] theorem State.setTxq_rxq : (s.setTxq v).rxq = s.rxq := rfl
@[simp] theorem State.setTxq_port : (s.setTxq v).port = s.port := rfl
@[simp] theorem State.setTxq_nextRef : (s.setTxq v).nextRef = s.nextRef := rfl
@[simp] theorem State.setTxq_pending : (s.setTxq v).pending = s.pending := rfl

end

section
variable (s : State) (v : List CompletionRecord)

@[simp] theorem State.setCompq_now : (s.setCompq v).now = s.now := rfl
@[simp] theorem State.setCompq_rstLow : (s.setCompq v).rstLow = s.rstLow := rfl
@[simp] theorem State.setCompq_straps : (s.setCompq v).straps = s.straps := rfl
@[simp] theorem State.setCompq_quiet : (s.setCompq v).quiet = s.quiet := rfl
@[simp] theorem State.setCompq_rx : (s.setCompq v).rx = s.rx := rfl
@[simp] theorem State.setCompq_driver : (s.setCompq v).driver = s.driver := rfl
@[simp] theorem State.setCompq_asm : (s.setCompq v).asm = s.asm := rfl
@[simp] theorem State.setCompq_em : (s.setCompq v).em = s.em := rfl
@[simp] theorem State.setCompq_rot : (s.setCompq v).rot = s.rot := rfl
@[simp] theorem State.setCompq_peers : (s.setCompq v).peers = s.peers := rfl
@[simp] theorem State.setCompq_pend : (s.setCompq v).pend = s.pend := rfl
@[simp] theorem State.setCompq_watch : (s.setCompq v).watch = s.watch := rfl
@[simp] theorem State.setCompq_txq : (s.setCompq v).txq = s.txq := rfl
@[simp] theorem State.setCompq_compq : (s.setCompq v).compq = v := rfl
@[simp] theorem State.setCompq_pool : (s.setCompq v).pool = s.pool := rfl
@[simp] theorem State.setCompq_rxq : (s.setCompq v).rxq = s.rxq := rfl
@[simp] theorem State.setCompq_port : (s.setCompq v).port = s.port := rfl
@[simp] theorem State.setCompq_nextRef : (s.setCompq v).nextRef = s.nextRef := rfl
@[simp] theorem State.setCompq_pending : (s.setCompq v).pending = s.pending := rfl

end

section
variable (s : State) (v : Pool)

@[simp] theorem State.setPool_now : (s.setPool v).now = s.now := rfl
@[simp] theorem State.setPool_rstLow : (s.setPool v).rstLow = s.rstLow := rfl
@[simp] theorem State.setPool_straps : (s.setPool v).straps = s.straps := rfl
@[simp] theorem State.setPool_quiet : (s.setPool v).quiet = s.quiet := rfl
@[simp] theorem State.setPool_rx : (s.setPool v).rx = s.rx := rfl
@[simp] theorem State.setPool_driver : (s.setPool v).driver = s.driver := rfl
@[simp] theorem State.setPool_asm : (s.setPool v).asm = s.asm := rfl
@[simp] theorem State.setPool_em : (s.setPool v).em = s.em := rfl
@[simp] theorem State.setPool_rot : (s.setPool v).rot = s.rot := rfl
@[simp] theorem State.setPool_peers : (s.setPool v).peers = s.peers := rfl
@[simp] theorem State.setPool_pend : (s.setPool v).pend = s.pend := rfl
@[simp] theorem State.setPool_watch : (s.setPool v).watch = s.watch := rfl
@[simp] theorem State.setPool_txq : (s.setPool v).txq = s.txq := rfl
@[simp] theorem State.setPool_compq : (s.setPool v).compq = s.compq := rfl
@[simp] theorem State.setPool_pool : (s.setPool v).pool = v := rfl
@[simp] theorem State.setPool_rxq : (s.setPool v).rxq = s.rxq := rfl
@[simp] theorem State.setPool_port : (s.setPool v).port = s.port := rfl
@[simp] theorem State.setPool_nextRef : (s.setPool v).nextRef = s.nextRef := rfl
@[simp] theorem State.setPool_pending : (s.setPool v).pending = s.pending := rfl

end

section
variable (s : State) (v : ReceiveQueue)

@[simp] theorem State.setRxq_now : (s.setRxq v).now = s.now := rfl
@[simp] theorem State.setRxq_rstLow : (s.setRxq v).rstLow = s.rstLow := rfl
@[simp] theorem State.setRxq_straps : (s.setRxq v).straps = s.straps := rfl
@[simp] theorem State.setRxq_quiet : (s.setRxq v).quiet = s.quiet := rfl
@[simp] theorem State.setRxq_rx : (s.setRxq v).rx = s.rx := rfl
@[simp] theorem State.setRxq_driver : (s.setRxq v).driver = s.driver := rfl
@[simp] theorem State.setRxq_asm : (s.setRxq v).asm = s.asm := rfl
@[simp] theorem State.setRxq_em : (s.setRxq v).em = s.em := rfl
@[simp] theorem State.setRxq_rot : (s.setRxq v).rot = s.rot := rfl
@[simp] theorem State.setRxq_peers : (s.setRxq v).peers = s.peers := rfl
@[simp] theorem State.setRxq_pend : (s.setRxq v).pend = s.pend := rfl
@[simp] theorem State.setRxq_watch : (s.setRxq v).watch = s.watch := rfl
@[simp] theorem State.setRxq_txq : (s.setRxq v).txq = s.txq := rfl
@[simp] theorem State.setRxq_compq : (s.setRxq v).compq = s.compq := rfl
@[simp] theorem State.setRxq_pool : (s.setRxq v).pool = s.pool := rfl
@[simp] theorem State.setRxq_rxq : (s.setRxq v).rxq = v := rfl
@[simp] theorem State.setRxq_port : (s.setRxq v).port = s.port := rfl
@[simp] theorem State.setRxq_nextRef : (s.setRxq v).nextRef = s.nextRef := rfl
@[simp] theorem State.setRxq_pending : (s.setRxq v).pending = s.pending := rfl

end

section
variable (s : State) (v : Port)

@[simp] theorem State.setPort_now : (s.setPort v).now = s.now := rfl
@[simp] theorem State.setPort_rstLow : (s.setPort v).rstLow = s.rstLow := rfl
@[simp] theorem State.setPort_straps : (s.setPort v).straps = s.straps := rfl
@[simp] theorem State.setPort_quiet : (s.setPort v).quiet = s.quiet := rfl
@[simp] theorem State.setPort_rx : (s.setPort v).rx = s.rx := rfl
@[simp] theorem State.setPort_driver : (s.setPort v).driver = s.driver := rfl
@[simp] theorem State.setPort_asm : (s.setPort v).asm = s.asm := rfl
@[simp] theorem State.setPort_em : (s.setPort v).em = s.em := rfl
@[simp] theorem State.setPort_rot : (s.setPort v).rot = s.rot := rfl
@[simp] theorem State.setPort_peers : (s.setPort v).peers = s.peers := rfl
@[simp] theorem State.setPort_pend : (s.setPort v).pend = s.pend := rfl
@[simp] theorem State.setPort_watch : (s.setPort v).watch = s.watch := rfl
@[simp] theorem State.setPort_txq : (s.setPort v).txq = s.txq := rfl
@[simp] theorem State.setPort_compq : (s.setPort v).compq = s.compq := rfl
@[simp] theorem State.setPort_pool : (s.setPort v).pool = s.pool := rfl
@[simp] theorem State.setPort_rxq : (s.setPort v).rxq = s.rxq := rfl
@[simp] theorem State.setPort_port : (s.setPort v).port = v := rfl
@[simp] theorem State.setPort_nextRef : (s.setPort v).nextRef = s.nextRef := rfl
@[simp] theorem State.setPort_pending : (s.setPort v).pending = s.pending := rfl

end

section
variable (s : State) (v : Nat)

@[simp] theorem State.setNextRef_now : (s.setNextRef v).now = s.now := rfl
@[simp] theorem State.setNextRef_rstLow : (s.setNextRef v).rstLow = s.rstLow := rfl
@[simp] theorem State.setNextRef_straps : (s.setNextRef v).straps = s.straps := rfl
@[simp] theorem State.setNextRef_quiet : (s.setNextRef v).quiet = s.quiet := rfl
@[simp] theorem State.setNextRef_rx : (s.setNextRef v).rx = s.rx := rfl
@[simp] theorem State.setNextRef_driver : (s.setNextRef v).driver = s.driver := rfl
@[simp] theorem State.setNextRef_asm : (s.setNextRef v).asm = s.asm := rfl
@[simp] theorem State.setNextRef_em : (s.setNextRef v).em = s.em := rfl
@[simp] theorem State.setNextRef_rot : (s.setNextRef v).rot = s.rot := rfl
@[simp] theorem State.setNextRef_peers : (s.setNextRef v).peers = s.peers := rfl
@[simp] theorem State.setNextRef_pend : (s.setNextRef v).pend = s.pend := rfl
@[simp] theorem State.setNextRef_watch : (s.setNextRef v).watch = s.watch := rfl
@[simp] theorem State.setNextRef_txq : (s.setNextRef v).txq = s.txq := rfl
@[simp] theorem State.setNextRef_compq : (s.setNextRef v).compq = s.compq := rfl
@[simp] theorem State.setNextRef_pool : (s.setNextRef v).pool = s.pool := rfl
@[simp] theorem State.setNextRef_rxq : (s.setNextRef v).rxq = s.rxq := rfl
@[simp] theorem State.setNextRef_port : (s.setNextRef v).port = s.port := rfl
@[simp] theorem State.setNextRef_nextRef : (s.setNextRef v).nextRef = v := rfl
@[simp] theorem State.setNextRef_pending : (s.setNextRef v).pending = s.pending := rfl

end

end Sys2Proof.Machine
end

