-- ==== Sys2Proof/Laws/Clock.lean ====
section
/-! SUPPORT. What the passage of time does: the lemmas of `State.advance` and `State.runTo`. -/

namespace Sys2Proof.Machine

section
variable (s : State) (d i : Nat)

@[simp] theorem State.advance_now : (s.advance d).now = s.now + d := rfl
@[simp] theorem State.advance_rstLow : (s.advance d).rstLow = s.rstLow := rfl
@[simp] theorem State.advance_straps : (s.advance d).straps = s.straps := rfl
@[simp] theorem State.advance_rx : (s.advance d).rx = s.rx := rfl
@[simp] theorem State.advance_asm : (s.advance d).asm = s.asm := rfl
@[simp] theorem State.advance_rot : (s.advance d).rot = s.rot := rfl
@[simp] theorem State.advance_peers : (s.advance d).peers = s.peers := rfl
@[simp] theorem State.advance_pend : (s.advance d).pend = s.pend := rfl
@[simp] theorem State.advance_watch : (s.advance d).watch = s.watch := rfl
@[simp] theorem State.advance_txq : (s.advance d).txq = s.txq := rfl
@[simp] theorem State.advance_compq : (s.advance d).compq = s.compq := rfl
@[simp] theorem State.advance_pool : (s.advance d).pool = s.pool := rfl
@[simp] theorem State.advance_rxq : (s.advance d).rxq = s.rxq := rfl
@[simp] theorem State.advance_port : (s.advance d).port = s.port := rfl
@[simp] theorem State.advance_nextRef : (s.advance d).nextRef = s.nextRef := rfl
@[simp] theorem State.advance_pending : (s.advance d).pending = s.pending := rfl
@[simp] theorem State.advance_lineRuns : (s.advance d).lineRuns = s.lineRuns := rfl

@[simp] theorem State.runTo_now : (s.runTo i).now = max s.now i := by
  simp only [State.runTo, State.advance_now]; omega
@[simp] theorem State.runTo_rstLow : (s.runTo i).rstLow = s.rstLow := rfl
@[simp] theorem State.runTo_straps : (s.runTo i).straps = s.straps := rfl
@[simp] theorem State.runTo_rx : (s.runTo i).rx = s.rx := rfl
@[simp] theorem State.runTo_asm : (s.runTo i).asm = s.asm := rfl
@[simp] theorem State.runTo_rot : (s.runTo i).rot = s.rot := rfl
@[simp] theorem State.runTo_peers : (s.runTo i).peers = s.peers := rfl
@[simp] theorem State.runTo_pend : (s.runTo i).pend = s.pend := rfl
@[simp] theorem State.runTo_watch : (s.runTo i).watch = s.watch := rfl
@[simp] theorem State.runTo_txq : (s.runTo i).txq = s.txq := rfl
@[simp] theorem State.runTo_compq : (s.runTo i).compq = s.compq := rfl
@[simp] theorem State.runTo_pool : (s.runTo i).pool = s.pool := rfl
@[simp] theorem State.runTo_rxq : (s.runTo i).rxq = s.rxq := rfl
@[simp] theorem State.runTo_port : (s.runTo i).port = s.port := rfl
@[simp] theorem State.runTo_nextRef : (s.runTo i).nextRef = s.nextRef := rfl
@[simp] theorem State.runTo_pending : (s.runTo i).pending = s.pending := rfl
@[simp] theorem State.runTo_lineRuns : (s.runTo i).lineRuns = s.lineRuns := rfl

end

/-- The line interface runs when RSTn is high and the straps are valid. -/
theorem State.lineRuns_of {s : State} (h : s.rstLow = false) (v : s.straps.valid = true) : s.lineRuns = true := by
  simp [State.lineRuns, h, v]

/-- The quiet timer after samples that pass. -/
theorem State.advance_quiet (s : State) (d : Nat) :
    (s.advance d).quiet = if s.lineRuns = true then s.quiet.run s.now d else s.quiet := rfl

/-- The quiet timer shows `n` once `untilQuiet` samples have passed, and no earlier. -/
theorem State.quiet_advance_iff (s : State) (n k : Nat) (h : s.lineRuns = true) (hn : n ≤ 65535) :
    n ≤ (s.advance k).quiet.elapsed ↔ s.untilQuiet n ≤ k := by
  simp only [State.advance_quiet, if_pos h, QuietTimer.run, State.untilQuiet, Config.quietMax]
  split <;> omega

/-- The driver after samples that pass: its clock run on, and the next character presented when that falls due. -/
theorem State.advance_driver (s : State) (d : Nat) :
    (s.advance d).driver =
      if s.em.presentsTo (s.driver.runTo (s.now + d)) (s.now + d) = true then
        (s.driver.runTo (s.now + d)).present (s.em.lineChar s.pool.cells (s.em.index + 1))
      else s.driver.runTo (s.now + d) := rfl

/-- The emitter after samples that pass: the next character covered when it is presented. -/
theorem State.advance_em (s : State) (d : Nat) :
    (s.advance d).em =
      if s.em.presentsTo (s.driver.runTo (s.now + d)) (s.now + d) = true then
        s.em.cover s.pool.cells (s.em.index + 1)
      else s.em := rfl

/-- Covering a character changes the CRC generator alone. -/
theorem Emitter.cover_frame (em : Emitter) (cells : List Host.Cell) (k : Nat) :
    em.cover cells k = { em with crc := (em.cover cells k).crc } := by
  unfold Emitter.cover; split <;> rfl

/-- Samples that pass change the CRC generator of the emitter alone. -/
theorem State.advance_em_frame (s : State) (d : Nat) : (s.advance d).em = { s.em with crc := (s.advance d).em.crc } := by
  rw [State.advance_em]; split
  · exact Emitter.cover_frame ..
  · rfl

section
variable (s : State) (d i : Nat)

@[simp] theorem State.advance_em_cond : (s.advance d).em.cond = s.em.cond := by rw [State.advance_em_frame]
@[simp] theorem State.advance_em_source : (s.advance d).em.source = s.em.source := by rw [State.advance_em_frame]
@[simp] theorem State.advance_em_header : (s.advance d).em.header = s.em.header := by rw [State.advance_em_frame]
@[simp] theorem State.advance_em_blocks : (s.advance d).em.blocks = s.em.blocks := by rw [State.advance_em_frame]
@[simp] theorem State.advance_em_length : (s.advance d).em.length = s.em.length := by rw [State.advance_em_frame]
@[simp] theorem State.advance_em_index : (s.advance d).em.index = s.em.index := by rw [State.advance_em_frame]
@[simp] theorem State.advance_em_count : (s.advance d).em.count = s.em.count := by rw [State.advance_em_frame]
@[simp] theorem State.advance_em_frameStart : (s.advance d).em.frameStart = s.em.frameStart := by
  rw [State.advance_em_frame]
@[simp] theorem State.runTo_em_cond : (s.runTo i).em.cond = s.em.cond := s.advance_em_cond _
@[simp] theorem State.runTo_em_source : (s.runTo i).em.source = s.em.source := s.advance_em_source _
@[simp] theorem State.runTo_em_header : (s.runTo i).em.header = s.em.header := s.advance_em_header _
@[simp] theorem State.runTo_em_blocks : (s.runTo i).em.blocks = s.em.blocks := s.advance_em_blocks _
@[simp] theorem State.runTo_em_length : (s.runTo i).em.length = s.em.length := s.advance_em_length _
@[simp] theorem State.runTo_em_index : (s.runTo i).em.index = s.em.index := s.advance_em_index _
@[simp] theorem State.runTo_em_count : (s.runTo i).em.count = s.em.count := s.advance_em_count _
@[simp] theorem State.runTo_em_frameStart : (s.runTo i).em.frameStart = s.em.frameStart := s.advance_em_frameStart _

end

/-- What a driver can be when the clock has run: itself, the next character begun, or IDLE (R11). -/
theorem Driver.runTo_cases (d : Driver) (t : Nat) :
    d.runTo t = d ∨
    (d.cond = .driving ∧ d.sent = true ∧ d.charStart + 176 ≤ t ∧
      ((∃ c, d.next = some c ∧
          d.runTo t = { cond := .driving, char := c, charStart := d.charStart + 176, sent := false, next := none }) ∨
        (d.next = none ∧ d.runTo t = Driver.init))) := by
  unfold Driver.runTo
  split
  · rename_i h
    refine .inr ⟨h.1, h.2.1, h.2.2, ?_⟩
    split
    · rename_i c hc; exact .inl ⟨c, hc, rfl⟩
    · rename_i hc; exact .inr ⟨hc, rfl⟩
  · exact .inl rfl

/-- The passage of time neither begins nor ends FINISHING. -/
theorem Driver.runTo_finishing (d : Driver) (t : Nat) : (d.runTo t).cond = .finishing ↔ d.cond = .finishing := by
  rcases d.runTo_cases t with h | ⟨hd, -, -, ⟨c, -, h⟩ | ⟨-, h⟩⟩
  · rw [h]
  · simp [h, hd]
  · simp [h, hd, Driver.init]

/-- A driver that is not DRIVING is not brought to DRIVING by the passage of time. -/
theorem Driver.runTo_driving {d : Driver} {t : Nat} (h : (d.runTo t).cond = .driving) : d.cond = .driving := by
  rcases d.runTo_cases t with e | ⟨hd, -⟩
  · rwa [e] at h
  · exact hd

/-- The condition of a driver after samples that pass: presenting a character does not change it. -/
theorem State.advance_driver_cond (s : State) (d : Nat) :
    (s.advance d).driver.cond = (s.driver.runTo (s.now + d)).cond := by
  rw [State.advance_driver]; split <;> rfl

/-- A driver that is not DRIVING is left as it is by samples that pass. -/
theorem State.advance_driver_still {s : State} (h : s.driver.cond ≠ .driving) (d : Nat) :
    (s.advance d).driver = s.driver := by
  have e : s.driver.runTo (s.now + d) = s.driver := by
    rcases s.driver.runTo_cases (s.now + d) with e | ⟨hd, -⟩
    · exact e
    · exact absurd hd h
  rw [State.advance_driver, e, if_neg]
  simp [Emitter.presentsTo, h]

end Sys2Proof.Machine
end

