-- ==== Sys2Proof/Laws/Pool.lean ====
section
/-! SUPPORT. The cells of the pool: every operation keeps their canonical form, and a byte is read as it was last
written. The blocks of the pool: what a claim and a release do to the holders. -/

namespace Sys2Proof.Machine

open Sys2Proof

/-- No cell at or below an address that lies below every listed one. -/
theorem readCell_below {m : List Host.Cell} {a : Nat} (h : ∀ c ∈ m, a < c.1) : readCell m a = 0 := by
  induction m with
  | nil => rfl
  | cons c rest ih =>
    have hc := h c (by simp)
    rw [readCell, if_neg (by omega)]
    exact ih fun d hd => h d (by simp [hd])

/-- A cell of a written memory is the written one or one that was there. -/
theorem mem_writeCell {m : List Host.Cell} {a : Nat} {v : Byte} {c : Host.Cell} (h : c ∈ writeCell m a v) :
    (c = (a, v) ∧ v ≠ 0) ∨ c ∈ m := by
  induction m with
  | nil =>
    by_cases hv : v = 0
    · simp [writeCell, hv] at h
    · simp [writeCell] at h; exact .inl ⟨h.2, hv⟩
  | cons d rest ih =>
    obtain ⟨b, w⟩ := d
    simp only [writeCell] at h
    split at h
    · split at h
      · exact .inr h
      · rcases List.mem_cons.1 h with rfl | h
        · exact .inl ⟨rfl, ‹_›⟩
        · exact .inr h
    · split at h
      · split at h
        · exact .inr (List.mem_cons_of_mem _ h)
        · rcases List.mem_cons.1 h with rfl | h
          · exact .inl ⟨rfl, ‹_›⟩
          · exact .inr (List.mem_cons_of_mem _ h)
      · rcases List.mem_cons.1 h with rfl | h
        · exact .inr (by simp)
        · rcases ih h with h | h
          · exact .inl h
          · exact .inr (List.mem_cons_of_mem _ h)

/-- A write keeps the canonical form. -/
theorem writeCell_wf {m : List Host.Cell} (a : Nat) (v : Byte) (h : cellsWf m) : cellsWf (writeCell m a v) := by
  refine ⟨?_, fun c hc => ?_⟩
  · induction m with
    | nil => rw [writeCell]; split <;> simp
    | cons d rest ih =>
      obtain ⟨b, w⟩ := d
      obtain ⟨hp, hz⟩ := h
      rw [List.pairwise_cons] at hp
      have ih' := ih ⟨hp.2, fun c hc => hz c (by simp [hc])⟩
      simp only [writeCell]
      split
      · split
        · exact List.pairwise_cons.2 hp
        · refine List.pairwise_cons.2 ⟨fun c hc => ?_, List.pairwise_cons.2 hp⟩
          rcases List.mem_cons.1 hc with rfl | hc
          · assumption
          · have := hp.1 c hc; simp only at this ⊢; omega
      · split
        · split
          · exact hp.2
          · refine List.pairwise_cons.2 ⟨fun c hc => ?_, hp.2⟩
            have := hp.1 c hc; simp only at this ⊢; omega
        · refine List.pairwise_cons.2 ⟨fun c hc => ?_, ih'⟩
          rcases mem_writeCell hc with ⟨rfl, -⟩ | hc
          · simp only; omega
          · exact hp.1 c hc
  · rcases mem_writeCell hc with ⟨rfl, hv⟩ | hc
    · exact hv
    · exact h.2 c hc

/-- A byte read after a write: the value at the address written, and as before at every other. -/
theorem readCell_writeCell {m : List Host.Cell} (h : cellsWf m) (a b : Nat) (v : Byte) :
    readCell (writeCell m a v) b = if b = a then v else readCell m b := by
  induction m with
  | nil =>
    by_cases hv : v = 0
    · simp [writeCell, hv, readCell]
    · simp only [writeCell, hv, if_false, readCell]
      by_cases hb : b = a
      · simp [hb]
      · simp [hb, Ne.symm hb]
  | cons d rest ih =>
    obtain ⟨c, w⟩ := d
    obtain ⟨hp, hz⟩ := h
    rw [List.pairwise_cons] at hp
    have ih' := ih ⟨hp.2, fun c hc => hz c (by simp [hc])⟩
    have low : ∀ x ≤ c, readCell rest x = 0 := fun x hx =>
      readCell_below fun y hy => by have := hp.1 y hy; simp only at this; omega
    simp only [writeCell]
    split
    · split
      · rename_i hv
        by_cases hb : b = a
        · subst hb; rw [if_pos rfl, hv, readCell, if_neg (by omega), low _ (by omega)]
        · rw [if_neg hb]
      · rw [readCell]
        by_cases hb : b = a
        · simp [hb]
        · rw [if_neg (Ne.symm hb), if_neg hb]
    · split
      · rename_i hac; subst hac
        split
        · rename_i hv
          by_cases hb : b = a
          · subst hb; rw [if_pos rfl, hv, low _ (le_refl _)]
          · rw [if_neg hb, readCell, if_neg (Ne.symm hb)]
        · rw [readCell]
          by_cases hb : b = a
          · simp [hb]
          · rw [if_neg (Ne.symm hb), if_neg hb, readCell, if_neg (Ne.symm hb)]
      · rw [readCell, ih', readCell]
        by_cases hb : b = a
        · subst hb; rw [if_neg (by omega), if_pos rfl, if_pos rfl]
        · rw [if_neg hb, if_neg hb]

/-- A write leaves every other byte, whatever the memory's form. -/
theorem readCell_writeCell_other {m : List Host.Cell} {a b : Nat} (v : Byte) (hb : b ≠ a) :
    readCell (writeCell m a v) b = readCell m b := by
  induction m with
  | nil =>
    rw [writeCell]
    split
    · rfl
    · simp only [readCell, if_neg (Ne.symm hb)]
  | cons d rest ih =>
    obtain ⟨c, w⟩ := d
    simp only [writeCell]
    split
    · split
      · rfl
      · rw [readCell, if_neg (Ne.symm hb)]
    · split
      · rename_i hac; subst hac
        split
        · rw [readCell, if_neg (Ne.symm hb)]
        · rw [readCell, if_neg (Ne.symm hb), readCell, if_neg (Ne.symm hb)]
      · rw [readCell, readCell, ih]

/-- A run of writes keeps the canonical form. -/
theorem writeCells_wf (bytes : List Byte) {m : List Host.Cell} (a : Nat) (h : cellsWf m) :
    cellsWf (writeCells m a bytes) := by
  induction bytes generalizing m a with
  | nil => exact h
  | cons v rest ih => exact ih (a + 1) (writeCell_wf a v h)

/-- A byte read after a run of writes. -/
theorem readCell_writeCells (bytes : List Byte) {m : List Host.Cell} (a b : Nat) (h : cellsWf m) :
    readCell (writeCells m a bytes) b =
      if a ≤ b ∧ b < a + bytes.length then bytes.getD (b - a) 0 else readCell m b := by
  induction bytes generalizing m a with
  | nil => rw [writeCells, if_neg]; simp only [List.length_nil]; omega
  | cons v rest ih =>
    rw [writeCells, ih (a + 1) (writeCell_wf a v h), readCell_writeCell h]
    simp only [List.length_cons]
    by_cases hb : b = a
    · subst hb; rw [if_neg (by omega), if_pos rfl, if_pos (by omega)]; simp
    · rw [if_neg hb]
      by_cases hr : a + 1 ≤ b ∧ b < a + 1 + rest.length
      · rw [if_pos hr, if_pos (by omega)]
        obtain ⟨k, hk⟩ : ∃ k, b - a = k + 1 := ⟨b - a - 1, by omega⟩
        rw [hk, List.getD_cons_succ, show b - (a + 1) = k by omega]
      · rw [if_neg hr, if_neg (by omega)]

/-- Filling blocks keeps the canonical form. -/
theorem fillBlocks_wf (blocks : List Nat) {m : List Host.Cell} (payload : List Byte) (h : cellsWf m) :
    cellsWf (fillBlocks m blocks payload) := by
  induction blocks generalizing m payload with
  | nil => exact h
  | cons b rest ih => exact ih _ (writeCells_wf _ _ h)

/-- A run of writes leaves every byte outside it, whatever the memory's form. -/
theorem readCell_writeCells_outside (bytes : List Byte) {m : List Host.Cell} {a b : Nat}
    (h : b < a ∨ a + bytes.length ≤ b) : readCell (writeCells m a bytes) b = readCell m b := by
  induction bytes generalizing m a with
  | nil => rfl
  | cons v rest ih =>
    simp only [List.length_cons] at h
    rw [writeCells, ih (by omega), readCell_writeCell_other v (by omega)]

/-- Filling blocks writes no byte outside them (R130). -/
theorem readCell_fillBlocks_outside (blocks : List Nat) {m : List Host.Cell} (payload : List Byte) {a : Nat}
    (ha : a / 16 ∉ blocks) : readCell (fillBlocks m blocks payload) a = readCell m a := by
  induction blocks generalizing m payload with
  | nil => rfl
  | cons b rest ih =>
    simp only [List.mem_cons, not_or] at ha
    rw [fillBlocks, ih _ ha.2, readCell_writeCells_outside]
    have hl : (payload.take Config.blockBytes).length ≤ 16 := by
      rw [List.length_take, show Config.blockBytes = 16 from rfl]; omega
    rw [show Config.blockBytes * b = 16 * b from rfl]
    omega

/-- A claim keeps the canonical form of the cells. -/
theorem Pool.claim_wf {p : Pool} (blocks : List Nat) (h : Holder) (payload : List Byte) (w : cellsWf p.cells) :
    cellsWf (p.claim blocks h payload).cells := fillBlocks_wf blocks payload w

/-- A release leaves the contents of every block (R130). -/
@[simp] theorem Pool.release_cells (p : Pool) (h : Holder) : (p.release h).cells = p.cells := rfl

/-- A reset leaves the contents of every block (R139). -/
@[simp] theorem Pool.resetHolders_cells (p : Pool) : p.resetHolders.cells = p.cells := rfl

/-- The number of blocks never changes. -/
@[simp] theorem Pool.claim_length (p : Pool) (blocks : List Nat) (h : Holder) (payload : List Byte) :
    (p.claim blocks h payload).holders.length = p.holders.length := by simp [Pool.claim]

/-- The number of blocks never changes. -/
@[simp] theorem Pool.release_length (p : Pool) (h : Holder) : (p.release h).holders.length = p.holders.length := by
  simp [Pool.release]

/-- A granted block was FREE (R130). -/
theorem Pool.mem_grant {p : Pool} {n b : Nat} (h : b ∈ p.grant n) : b < 64 ∧ p.holders[b]? = some .free := by
  have h1 : b ∈ p.freeBlocks := List.mem_of_mem_take h
  simp only [Pool.freeBlocks, List.mem_filter, List.mem_range, decide_eq_true_eq, List.getD_eq_getElem?_getD] at h1
  refine ⟨h1.1, ?_⟩
  cases hb : p.holders[b]? with
  | none => rw [hb] at h1; simp at h1
  | some x => rw [hb] at h1; simp at h1; simp [h1]

end Sys2Proof.Machine
end

