-- ==== Sys2Proof/Laws/Queues.lean ====
section
/-! SUPPORT. What the shared operations of the queues, the peer table, the emitter and the answer unit can touch: each
lemma gives the operation as a replacement of the blocks it may change, so that a proof about any other block need not
unfold it. -/

namespace Sys2Proof.Machine

open Sys2Proof

/-- A conclusion touches the queues, the pool and the peer table. -/
theorem State.conclude_frame (s : State) (ref : Nat) (o : TxOutcome) (r : Bool) :
    s.conclude ref o r =
      { s with
        txq := (s.conclude ref o r).txq, compq := (s.conclude ref o r).compq, pool := (s.conclude ref o r).pool,
        peers := (s.conclude ref o r).peers } := by
  unfold State.conclude
  split
  · rfl
  · dsimp only; split <;> rfl

/-- A conclusion that finds its entry: it leaves, its blocks become FREE, and one record is appended (R116). -/
theorem State.conclude_found {s : State} {ref : Nat} {e : TxEntry} (h : findEntry s.txq ref = some e) (o : TxOutcome)
    (r : Bool) :
    (s.conclude ref o r).txq = removeEntry s.txq ref ∧ (s.conclude ref o r).compq = s.compq ++ [e.record o] ∧
    (s.conclude ref o r).pool = s.pool.release (.transmit ref) ∧
    (s.conclude ref o r).peers =
      if e.isCast = true then s.peers else s.peers.modify e.dest fun p => p.concluded ref o r := by
  unfold State.conclude
  simp only [h]
  split <;> exact ⟨rfl, rfl, rfl, rfl⟩

/-- A conclusion that finds no entry does nothing. -/
theorem State.conclude_missing {s : State} {ref : Nat} (h : findEntry s.txq ref = none) (o : TxOutcome) (r : Bool) :
    s.conclude ref o r = s := by
  unfold State.conclude; simp only [h]

/-- A cancel concluded touches the queues, the pool and the peer table. -/
theorem State.concludeCancelled_frame (s : State) (e : TxEntry) :
    s.concludeCancelled e =
      { s with
        txq := (s.concludeCancelled e).txq, compq := (s.concludeCancelled e).compq,
        pool := (s.concludeCancelled e).pool, peers := (s.concludeCancelled e).peers } := by
  unfold State.concludeCancelled
  split <;> exact State.conclude_frame ..

/-- A watch result touches the queues, the pool and the peer table. -/
theorem State.applyWatchResult_frame (s : State) (ref : Nat) (r : WatchResult) :
    s.applyWatchResult ref r =
      { s with
        txq := (s.applyWatchResult ref r).txq, compq := (s.applyWatchResult ref r).compq,
        pool := (s.applyWatchResult ref r).pool, peers := (s.applyWatchResult ref r).peers } := by
  unfold State.applyWatchResult
  split
  · rfl
  · split
    · dsimp only
      split
      · exact State.conclude_frame ..
      · split <;> rfl
    · rfl

/-- The end of an attempt by a lost report or a refusal touches the queues, the pool and the peer table. -/
theorem State.returnEntry_frame (s : State) (ref : Nat) :
    s.returnEntry ref =
      { s with
        txq := (s.returnEntry ref).txq, compq := (s.returnEntry ref).compq, pool := (s.returnEntry ref).pool,
        peers := (s.returnEntry ref).peers } := by
  unfold State.returnEntry
  split
  · rfl
  · split
    · exact State.concludeCancelled_frame ..
    · dsimp only; split <;> rfl

/-- A cancel of one entry touches the queues, the pool and the peer table. -/
theorem State.cancelEntry_frame (s : State) (e : TxEntry) :
    s.cancelEntry e =
      { s with
        txq := (s.cancelEntry e).txq, compq := (s.cancelEntry e).compq, pool := (s.cancelEntry e).pool,
        peers := (s.cancelEntry e).peers } := by
  unfold State.cancelEntry
  split
  · rfl
  · exact State.concludeCancelled_frame ..

/-- A run of cancels touches the queues, the pool and the peer table. -/
theorem State.cancelAll_frame (es : List TxEntry) (s : State) :
    es.foldl State.cancelEntry s =
      { s with
        txq := (es.foldl State.cancelEntry s).txq, compq := (es.foldl State.cancelEntry s).compq,
        pool := (es.foldl State.cancelEntry s).pool, peers := (es.foldl State.cancelEntry s).peers } := by
  induction es generalizing s with
  | nil => rfl
  | cons e es ih => rw [List.foldl_cons, ih, State.cancelEntry_frame]

/-- A frame begun touches the emitter and the driver. -/
theorem State.beginFrame_frame (s : State) (src : FrameSource) (h : List Byte) (b : List Nat) (len : Nat) :
    s.beginFrame src h b len =
      { s with em := (s.beginFrame src h b len).em, driver := (s.beginFrame src h b len).driver } := rfl

/-- The end of the answer activity touches the pending answer and the rotation controller. -/
theorem State.endEmittedAnswer_frame (s : State) :
    s.endEmittedAnswer = { s with pend := s.endEmittedAnswer.pend, rot := s.endEmittedAnswer.rot } := by
  unfold State.endEmittedAnswer
  split
  · split <;> rfl
  · rfl

/-- The close of the watch touches the watch, the rotation controller, the queues, the pool and the peer table. -/
theorem State.closeWatch_frame (s : State) (w : Watched) (r : WatchResult) :
    s.closeWatch w r =
      { s with
        watch := .shut, rot := s.rot.watchClosed, txq := (s.closeWatch w r).txq, compq := (s.closeWatch w r).compq,
        pool := (s.closeWatch w r).pool, peers := (s.closeWatch w r).peers } := by
  unfold State.closeWatch
  exact State.applyWatchResult_frame ..

/-- What a block that may close the watch does: nothing, or the close with some result of the entry it watches. -/
def State.MayCloseWatch (s t : State) : Prop :=
  t = s ∨ ∃ w r, s.watch.watched = some w ∧ t = s.closeWatch w r

/-- A damage notice at the watch. -/
theorem State.watchDamage_mayClose (s : State) (start : Nat) : s.MayCloseWatch (s.watchDamage start) := by
  unfold State.watchDamage State.MayCloseWatch
  cases h : s.watch <;> simp only [Watch.watched]
  · exact .inl trivial
  · exact .inl trivial
  · split
    · exact .inr ⟨_, _, rfl, rfl⟩
    · exact .inl rfl
  · split
    · exact .inr ⟨_, _, rfl, rfl⟩
    · exact .inl rfl

/-- The end of a held frame at the watch. -/
theorem State.watchFrameEnd_mayClose (s : State) (f : Frame) : s.MayCloseWatch (s.watchFrameEnd f) := by
  unfold State.watchFrameEnd State.MayCloseWatch
  cases h : s.watch <;> simp only [Watch.watched]
  · exact .inl trivial
  · exact .inl trivial
  · exact .inl trivial
  · split
    · exact .inr ⟨_, _, rfl, rfl⟩
    · exact .inl rfl

/-- A character that gives no notice at the watch. -/
theorem State.watchPassed_mayClose (s : State) (start : Nat) : s.MayCloseWatch (s.watchPassed start) := by
  unfold State.watchPassed State.MayCloseWatch
  cases h : s.watch <;> simp only [Watch.watched]
  · exact .inl trivial
  · exact .inl trivial
  · split
    · exact .inr ⟨_, _, rfl, rfl⟩
    · exact .inl rfl
  · exact .inl trivial

/-- A block that may close the watch touches the watch, the rotation controller, the queues, the pool and the peers. -/
theorem State.MayCloseWatch.frame {s t : State} (h : s.MayCloseWatch t) :
    t = { s with
      watch := t.watch, rot := t.rot, txq := t.txq, compq := t.compq, pool := t.pool, peers := t.peers } := by
  rcases h with rfl | ⟨w, r, -, rfl⟩
  · rfl
  · rw [State.closeWatch_frame]

/-- A record appended touches the pool, the receive queue and the supply of references. -/
theorem State.appendRecord_frame (s : State) (f : Frame) (c : RecordClass) :
    s.appendRecord f c =
      { s with
        pool := (s.appendRecord f c).pool, rxq := (s.appendRecord f c).rxq, nextRef := s.nextRef + 1 } := rfl

/-- What the end of a superseded answer leaves in the rotation controller, from it and the pending answer (R89). -/
theorem State.supersede_rot (s : State) :
    s.supersede.rot = if s.pend.isSome = true then s.rot.answerEnded else s.rot := by
  unfold State.supersede; split <;> rfl

/-- An answer made due touches the pending answer and the rotation controller: an earlier answer ended, and the answer
activity begun. -/
theorem State.answerDue_eq (s : State) (f : Frame) (k : AnswerCode) :
    s.answerDue f k =
      { s with
        pend := some
          { phase := .due, sender := f.sender, seq := f.seq, code := k, windowStart := f.fin + Config.windowOpen }
        rot := (if s.pend.isSome = true then s.rot.answerEnded else s.rot).answerDue } := by
  unfold State.answerDue
  rw [State.supersede_rot]
  unfold State.supersede
  split <;> rfl

/-- A decision touches the pool, the receive queue, the references, the peers, the pending answer and the answer
activity. -/
theorem State.takeOrBusy_frame (s : State) (f : Frame) (l : Bool) :
    s.takeOrBusy f l =
      { s with
        pool := (s.takeOrBusy f l).pool, rxq := (s.takeOrBusy f l).rxq, nextRef := (s.takeOrBusy f l).nextRef,
        peers := (s.takeOrBusy f l).peers, pend := (s.takeOrBusy f l).pend,
        rot := (if s.pend.isSome = true then s.rot.answerEnded else s.rot).answerDue } := by
  unfold State.takeOrBusy
  split
  · unfold State.acceptData
    rw [State.answerDue_eq, State.appendRecord_frame]
    generalize (s.appendRecord f _).pool = p
    generalize (s.appendRecord f _).rxq = q
    rfl
  · rw [State.answerDue_eq]

/-- The offer of a frame touches the pool, the receive queue, the references, the peers, the pending answer and the
answer activity. -/
theorem State.offerFrame_frame (s : State) (f : Frame) :
    s.offerFrame f =
      { s with
        pool := (s.offerFrame f).pool, rxq := (s.offerFrame f).rxq, nextRef := (s.offerFrame f).nextRef,
        peers := (s.offerFrame f).peers, pend := (s.offerFrame f).pend, rot := (s.offerFrame f).rot } := by
  unfold State.offerFrame
  split
  · rfl
  · split
    · split
      · unfold State.decideAnswer
        split
        · split
          · rw [State.answerDue_eq]
          · rw [State.answerDue_eq]
          · rw [State.takeOrBusy_frame]
          · rw [State.takeOrBusy_frame]
        · rfl
      · rfl
    · unfold State.receiveCast
      split
      · rw [State.appendRecord_frame]
      · rfl
    · rfl

/-- What the offer of a frame leaves in the rotation controller: itself, or itself with the answer activity begun, after
the end of an earlier answer. -/
theorem State.offerFrame_rot (s : State) (f : Frame) :
    (s.offerFrame f).rot = s.rot ∨
      (s.offerFrame f).rot = (if s.pend.isSome = true then s.rot.answerEnded else s.rot).answerDue := by
  unfold State.offerFrame
  split
  · exact .inl rfl
  · split
    · split
      · unfold State.decideAnswer
        split
        · split
          · rw [State.answerDue_eq]; exact .inr rfl
          · rw [State.answerDue_eq]; exact .inr rfl
          · rw [State.takeOrBusy_frame]; exact .inr rfl
          · rw [State.takeOrBusy_frame]; exact .inr rfl
        · exact .inl rfl
      · exact .inl rfl
    · unfold State.receiveCast
      split
      · rw [State.appendRecord_frame]; exact .inl rfl
      · exact .inl rfl
    · exact .inl rfl

end Sys2Proof.Machine
end

