-- ==== Sys2Proof/Laws/Frames.lean ====
section
/-! SUPPORT. What the notices of the assembler, the reports of the emitter and the turns of the rotation can touch. -/

namespace Sys2Proof.Machine

open Sys2Proof

/-- The blocks that a notice of the assembler reaches: rotation controller, answer unit, queues, pool and peer table. -/
def State.NoticeTouched (s t : State) : Prop :=
  t = { s with
    rot := t.rot, watch := t.watch, txq := t.txq, compq := t.compq, pool := t.pool, peers := t.peers, rxq := t.rxq,
    nextRef := t.nextRef, pend := t.pend }

theorem State.NoticeTouched.refl (s : State) : s.NoticeTouched s := rfl

theorem State.NoticeTouched.trans {s t u : State} (h : s.NoticeTouched t) (g : t.NoticeTouched u) :
    s.NoticeTouched u := by
  unfold State.NoticeTouched at *
  rw [g, h]

theorem State.MayCloseWatch.touched {s t : State} (h : s.MayCloseWatch t) : s.NoticeTouched t := by
  unfold State.NoticeTouched
  rw [h.frame]

theorem State.offerFrame_touched (s : State) (f : Frame) : s.NoticeTouched (s.offerFrame f) := by
  unfold State.NoticeTouched
  rw [State.offerFrame_frame]

theorem State.rotateFrame_touched (s : State) (f : Frame) : s.NoticeTouched (s.rotateFrame f) := rfl

/-- A property that the rotation controller's notice, the offer and the watch's frame end each keep holds after a good
frame's end, in every order. -/
theorem State.goodFrame_keeps {P : State → Prop} {f : Frame} (hr : ∀ s, P s → P (s.rotateFrame f))
    (ho : ∀ s, P s → P (s.offerFrame f)) (hw : ∀ s, P s → P (s.watchFrameEnd f)) (o : EndOrder) {s : State}
    (h : P s) : P (s.goodFrame o f) := by
  obtain ⟨r, q⟩ := o
  cases r <;> cases q <;> simp only [State.goodFrame, if_true, Bool.false_eq_true, if_false]
  · exact ho _ (hr _ (hw _ h))
  · exact hr _ (hw _ (ho _ h))
  · exact ho _ (hw _ (hr _ h))
  · exact hw _ (ho _ (hr _ h))

/-- A good frame's end touches only the blocks that a notice reaches. -/
theorem State.goodFrame_touched (s : State) (o : EndOrder) (f : Frame) : s.NoticeTouched (s.goodFrame o f) :=
  State.goodFrame_keeps (P := s.NoticeTouched) (fun u h => h.trans (u.rotateFrame_touched f))
    (fun u h => h.trans (u.offerFrame_touched f)) (fun u h => h.trans (u.watchFrameEnd_mayClose f).touched) o
    (State.NoticeTouched.refl s)

/-- A damage notice touches only the blocks that a notice reaches. -/
theorem State.damageNotice_touched (s : State) (start : Nat) : s.NoticeTouched (s.damageNotice start) :=
  State.NoticeTouched.trans (t := s.setRot (s.rot.onDamage s.now)) rfl
    (State.watchDamage_mayClose (s.setRot (s.rot.onDamage s.now)) start).touched

/-- A notice touches only the blocks that it reaches. -/
theorem State.notice_touched (s : State) (o : EndOrder) (n : AsmNotice) : s.NoticeTouched (s.notice o n) := by
  cases n with
  | quiet => exact State.NoticeTouched.refl s
  | opened start kind => rfl
  | damage start => exact State.damageNotice_touched ..
  | good f => exact State.goodFrame_touched ..

/-- A character delivered touches the assembler and the blocks that its notice reaches. -/
theorem State.deliver_touched (s : State) (o : EndOrder) (c : RxChar) :
    (s.setAsm (s.asm.deliver s.straps.own s.straps.highest s.now c).1).NoticeTouched (s.deliver o c) := by
  unfold State.deliver
  dsimp only
  split
  · exact (State.notice_touched ..).trans (State.watchPassed_mayClose ..).touched
  · exact State.notice_touched ..

/-- A truncation touches the assembler and the blocks that a notice reaches. -/
theorem State.truncate_touched (s : State) : (s.setAsm s.asm.damaged).NoticeTouched s.truncate :=
  State.damageNotice_touched ..

/-- The blocks that a report of the emitter reaches. -/
def State.ReportTouched (s t : State) : Prop :=
  t = { s with
    rot := t.rot, watch := t.watch, txq := t.txq, compq := t.compq, pool := t.pool, peers := t.peers,
    pend := t.pend }

/-- An emitted report touches only the blocks that a report reaches. -/
theorem State.emittedReport_touched (s : State) (src : FrameSource) : s.ReportTouched (s.emittedReport src) := by
  unfold State.ReportTouched
  cases src with
  | none => rfl
  | answer => simp only [State.emittedReport]; rw [State.endEmittedAnswer_frame]; rfl
  | transmit ref kind =>
    cases kind with
    | cast => simp only [State.emittedReport]; rw [State.conclude_frame]; rfl
    | data => rfl
    | answer => rfl

/-- A lost report touches only the blocks that a report reaches. -/
theorem State.lostReport_touched (s : State) (src : FrameSource) (start : Nat) (m : Mismatch) :
    s.ReportTouched (s.lostReport src start m) := by
  unfold State.ReportTouched
  cases src with
  | none => rfl
  | answer => simp only [State.lostReport]; rw [State.endEmittedAnswer_frame]; rfl
  | transmit ref kind =>
    cases kind <;> simp only [State.lostReport] <;> rw [State.returnEntry_frame] <;> rfl

/-- A mismatch touches the driver, the driven indication, the emitter and the blocks that a report reaches. -/
theorem State.mismatch_touched (s : State) (k : MismatchKind) (cell : Nat) :
    (((s.setDriver Driver.init).setRx { s.rx with driven := false }).setEm (s.mismatch k cell).em).ReportTouched
      (s.mismatch k cell) := by
  unfold State.mismatch
  dsimp only
  split
  · have h := State.lostReport_touched
      (((s.setDriver Driver.init).setRx { s.rx with driven := false }).setEm Emitter.init) s.em.source s.em.frameStart
      { kind := k, index := s.em.index, cell := cell }
    unfold State.ReportTouched at h ⊢
    rw [h]; rfl
  · rfl

/-- The blocks that a turn of the station's own reaches: the emitter and the driver, the rotation controller, the watch,
the queues, the pool and the peer table. -/
def State.TurnTouched (s t : State) : Prop :=
  t = { s with
    em := t.em, driver := t.driver, rot := t.rot, watch := t.watch, txq := t.txq, compq := t.compq, pool := t.pool,
    peers := t.peers }

/-- The start of an entry's frame touches only the blocks that a turn reaches. -/
theorem State.startEntry_touched (s : State) (e : TxEntry) : s.TurnTouched (s.startEntry e) := by
  unfold State.startEntry State.TurnTouched
  dsimp only
  split
  · rw [State.beginFrame_frame]
    generalize (State.beginFrame _ _ _ _ _).em = m
    generalize (State.beginFrame _ _ _ _ _).driver = d
    rfl
  · rw [State.beginFrame_frame]
    generalize (State.beginFrame _ _ _ _ _).em = m
    generalize (State.beginFrame _ _ _ _ _).driver = d
    rfl

/-- The own-turn test touches only the blocks that a turn reaches. -/
theorem State.ownTurn_touched (s : State) : s.TurnTouched s.ownTurn := by
  unfold State.ownTurn
  split
  · split
    · unfold State.requestEntry
      split
      · exact State.startEntry_touched ..
      · unfold State.notStarted State.TurnTouched
        rw [State.returnEntry_frame]; rfl
    · rfl
  · rfl

end Sys2Proof.Machine
end

