-- ==== Sys2Proof/Laws/Moves.lean ====
section
/-! SUPPORT. What a command can do to the rotation controller, the queues, the pool and the answer watch, said once: every
command is a run of elementary moves, each with the guard under which it is made. A property of the state that every
move keeps is kept by every command. -/

namespace Sys2Proof.Machine

open Sys2Proof

/-- The changes that the commands make to the rotation controller, on a line with highest station `h`. -/
inductive RotMove (h : Nat) : Rotation → Rotation → Prop where
  | opened (r : Rotation) (start : Nat) : RotMove h r (r.onFrameOpened start)
  | good (r : Rotation) (f : Frame) : RotMove h r (r.onGoodFrame h f)
  | damage (r : Rotation) (t : Nat) : RotMove h r (r.onDamage t)
  | passed (r : Rotation) (t : Nat) (a : r.station = .active) : RotMove h r (r.passWindow t)
  | emitted (r : Rotation) (k : FrameKind) : RotMove h r (r.onEmitted k)
  | lost (r : Rotation) (k : FrameKind) (start t : Nat) (m : Mismatch) : RotMove h r (r.onLost k start t m)
  | due (r : Rotation) : RotMove h r r.answerDue
  | ended (r : Rotation) : RotMove h r r.answerEnded
  | closed (r : Rotation) : RotMove h r r.watchClosed
  | slot (r : Rotation) (i : Nat) (a : r.station = .active) : RotMove h r (r.takeSlot i)
  | turn (r : Rotation) (a : r.station = .active) : RotMove h r r.ownFrameBegun
  | restDue (r : Rotation) (a : r.station = .active) : RotMove h r { r with position := .restDue }
  | rest (r : Rotation) (t : Nat) (a : r.station = .active ∨ r.station = .listen) : RotMove h r (r.rest t)
  | leave (r : Rotation) (a : r.station = .active ∨ r.station = .listen) : RotMove h r r.leave.1
  | rejoin (r : Rotation) (t : Nat) (a : r.station = .withdrawn) : RotMove h r (r.rejoin t)
  | cleared (r : Rotation) : RotMove h r r.clearRequest
  | snapshot (r : Rotation) : RotMove h r { r with setSinceSnapshot := false }

/-- The states that agree on the rotation controller, the watch, the queues, the pool, the peer table, the straps and
RSTn. -/
def State.SideTouched (s t : State) : Prop :=
  t = { s with
    now := t.now, quiet := t.quiet, rx := t.rx, driver := t.driver, asm := t.asm, em := t.em, pend := t.pend,
    port := t.port, pending := t.pending }

/-- The elementary moves of the command `c`. -/
inductive Move (c : Instr) : State → State → Prop where
  | side {s t : State} (h : s.SideTouched t) : Move c s t
  | rotate (s : State) (r : Rotation) (h : RotMove s.straps.highest s.rot r) : Move c s (s.setRot r)
  | watch (s : State) (w : Watch) (h : w.watched = none ∨ w.watched = s.watch.watched) : Move c s (s.setWatch w)
  | selectCast (s : State) (e : TxEntry) (h : offer s.txq = some e) (k : e.isCast = true) :
      Move c s (s.setTxq (updateEntry s.txq e.ref TxEntry.select))
  | selectData (s : State) (e : TxEntry) (q : Seq) (h : offer s.txq = some e) (k : e.isCast = false) :
      Move c s (((s.setTxq (updateEntry s.txq e.ref TxEntry.select)).modifyPeer e.dest fun p => p.setOutstanding e.ref).setWatch
        (.noted { entry := e.ref, dest := e.dest, seq := q }))
  | refused (s : State) (e : TxEntry) (h : offer s.txq = some e) : Move c s (s.notStarted e)
  | counted (s : State) (ref : Nat) : Move c s (s.setTxq (updateEntry s.txq ref TxEntry.countAttempt))
  | sent (s : State) (ref : Nat) : Move c s (s.conclude ref .sent false)
  | returned (s : State) (ref : Nat) : Move c s (s.returnEntry ref)
  | result (s : State) (w : Watched) (r : WatchResult) (h : s.watch.watched = some w) :
      Move c s ((s.setWatch .shut).applyWatchResult w.entry r)
  | cancel (s : State) (tag : Byte) : Move c s (s.cancelTag tag).1
  | flush (s : State) : Move c s s.flushAll.1
  | post (s : State) (dt dest : Nat) (tag : Byte) (len : Nat) (payload : List Byte) (hc : c = .post dt .close)
      (hj : s.judgePost dest len = .ok) : Move c s (s.appendEntry dest tag len payload)
  | record (s : State) (a b : Bool) (f : Frame) (k : RecordClass)
      (hc : c = .characterDelivered a b) (hr : s.hasRoom (Config.blocksFor f.length) = true) :
      Move c s (s.appendRecord f k)
  | accept (s : State) (a b : Bool) (k : Nat) (seq : Seq) (fresh : Bool) (hc : c = .characterDelivered a b) :
      Move c s (s.modifyPeer k fun p => p.accept seq fresh)
  | castLost (s : State) (a b : Bool) (hc : c = .characterDelivered a b) :
      Move c s (s.setRxq { s.rxq with tally := satSucc Config.tallyMax s.rxq.tally })
  | take (s : State) (dt : Nat) (hc : c = .take dt .close) : Move c s s.removeHeadRecord
  | reap (s : State) (dt : Nat) (hc : c = .reap dt .close) : Move c s (s.setCompq s.compq.tail)
  | pinReset (s : State) (dt : Nat) (hc : c = .pinReset dt) : Move c s s.pinReset
  | release (s : State) (dt : Nat) (a b : BitVec 5) (r : BitVec 2) (l : Bool) (hc : c = .rstnRelease dt a b r l) :
      Move c s (s.release a.toNat b.toNat r.toNat l)
  | restart (s : State) (dt : Nat) (hc : c = .restart dt .close) : Move c s s.restart

/-- A run of moves of the command `c`. -/
abbrev Moves (c : Instr) : State → State → Prop := Relation.ReflTransGen (Move c)

section
variable {c : Instr}

theorem Moves.refl (s : State) : Moves c s s := Relation.ReflTransGen.refl
theorem Moves.one {s t : State} (h : Move c s t) : Moves c s t := Relation.ReflTransGen.single h
theorem Moves.trans {s t u : State} (h : Moves c s t) (g : Moves c t u) : Moves c s u := Relation.ReflTransGen.trans h g
theorem Moves.side {s t : State} (h : s.SideTouched t) : Moves c s t := .one (.side h)
theorem Moves.rot {s : State} {r : Rotation} (h : RotMove s.straps.highest s.rot r) : Moves c s (s.setRot r) :=
  .one (.rotate s r h)

/-- A property that every move keeps is kept by a run of moves. -/
theorem Moves.keeps {P : State → Prop} (hp : ∀ s t, Move c s t → P s → P t) {s t : State} (m : Moves c s t) (h : P s) :
    P t := by
  induction m with
  | refl => exact h
  | tail _ m ih => exact hp _ _ m ih

theorem Moves.endAnswer (s : State) : Moves c s s.endAnswer :=
  .trans (t := s.setPend none) (.side rfl) (.rot (.ended _))

theorem Moves.endEmittedAnswer (s : State) : Moves c s s.endEmittedAnswer := by
  unfold State.endEmittedAnswer
  split
  · split
    · exact .endAnswer s
    · exact .refl s
  · exact .refl s

theorem Watch.onEmitted_watched (w : Watch) (t : Nat) : (w.onEmitted t).watched = w.watched := by cases w <;> rfl

theorem Watch.onLost_watched (w : Watch) : w.onLost.watched = none ∨ w.onLost.watched = w.watched := by
  cases w <;> simp [Watch.onLost, Watch.watched]

theorem Watch.onFrameOpened_watched (w : Watch) (st : Nat) (k : FrameKind) :
    (w.onFrameOpened st k).watched = w.watched := by
  cases w with
  | opened y e => simp only [Watch.onFrameOpened]; split <;> rfl
  | shut => rfl
  | noted y => rfl
  | holding y e h => rfl

theorem Moves.emittedReport (s : State) (src : FrameSource) : Moves c s (s.emittedReport src) := by
  have data (ref : Nat) : Moves c s (((s.setRot (s.rot.onEmitted .data)).setTxq
      (updateEntry s.txq ref TxEntry.countAttempt)).setWatch (s.watch.onEmitted s.now)) :=
    .trans (.rot (.emitted _ .data)) (.trans (.one (.counted _ ref)) (.one (.watch _ _ (.inr (Watch.onEmitted_watched ..)))))
  cases src with
  | none => exact .refl s
  | answer => exact .trans (.rot (.emitted _ .answer)) (.endEmittedAnswer _)
  | transmit ref k =>
    cases k with
    | cast => exact .trans (.rot (.emitted _ .cast)) (.one (.sent _ ref))
    | data => exact data ref
    | answer => exact data ref

theorem Moves.lostReport (s : State) (src : FrameSource) (start : Nat) (m : Mismatch) :
    Moves c s (s.lostReport src start m) := by
  have data (ref : Nat) :
      Moves c s (((s.setRot (s.rot.onLost .data start s.now m)).setWatch s.watch.onLost).returnEntry ref) :=
    .trans (.rot (.lost _ .data start s.now m)) (.trans (.one (.watch _ _ (Watch.onLost_watched _))) (.one (.returned _ ref)))
  cases src with
  | none => exact .refl s
  | answer => exact .trans (.rot (.lost _ .answer start s.now m)) (.endEmittedAnswer _)
  | transmit ref k =>
    cases k with
    | cast => exact .trans (.rot (.lost _ .cast start s.now m)) (.one (.returned _ ref))
    | data => exact data ref
    | answer => exact data ref

theorem Moves.charSent (s : State) : Moves c s s.charSent := by
  unfold State.charSent
  dsimp only
  split
  · exact .trans (t := (s.setDriver { s.driver with sent := true, next := none }).setEm Emitter.init) (.side rfl)
      (.emittedReport _ _)
  · exact .side rfl

theorem Moves.mismatch (s : State) (k : MismatchKind) (cell : Nat) : Moves c s (s.mismatch k cell) := by
  unfold State.mismatch
  dsimp only
  split
  · exact .trans (t := ((s.setDriver Driver.init).setRx { s.rx with driven := false }).setEm Emitter.init) (.side rfl)
      (.lostReport _ _ _ _)
  · exact .side rfl

theorem Moves.closeWatch {s : State} {w : Watched} (h : s.watch.watched = some w) (r : WatchResult) :
    Moves c s (s.closeWatch w r) :=
  .trans (.rot (.closed _)) (.one (.result (s.setRot s.rot.watchClosed) w r h))

theorem Moves.mayClose {s t : State} (h : s.MayCloseWatch t) : Moves c s t := by
  rcases h with rfl | ⟨w, r, hw, rfl⟩
  · exact .refl _
  · exact .closeWatch hw r

theorem Moves.startEntry {s : State} {e : TxEntry} (a : s.rot.station = .active) (h : offer s.txq = some e) :
    Moves c s (s.startEntry e) := by
  unfold State.startEntry
  dsimp only
  split
  · rename_i k
    exact .trans (.rot (.turn _ a)) (.trans (.one (.selectCast _ e h k)) (.side rfl))
  · rename_i k
    exact .trans (.rot (.turn _ a)) (.trans (.one (.selectData _ e (s.peer e.dest).txSeq h (by simpa using k))) (.side rfl))

theorem Moves.ownTurn {s : State} (a : s.rot.station = .active) : Moves c s s.ownTurn := by
  unfold State.ownTurn
  split
  · split
    · rename_i e h
      unfold State.requestEntry
      split
      · exact .startEntry a h
      · exact .one (.refused s e h)
    · exact .refl s
  · exact .refl s

theorem Moves.slotStart {s : State} (a : s.rot.station = .active) (i : Nat) : Moves c s (s.slotStart i) := by
  unfold State.slotStart
  dsimp only
  split
  · exact .trans (.rot (.slot _ i a)) (.ownTurn a)
  · exact .rot (.slot _ i a)

theorem Moves.damageNotice (s : State) (start : Nat) : Moves c s (s.damageNotice start) :=
  .trans (.rot (.damage _ s.now)) (.mayClose (State.watchDamage_mayClose _ _))

theorem Moves.openedNotice (s : State) (start : Nat) (k : FrameKind) : Moves c s (s.openedNotice start k) :=
  .trans (.rot (.opened _ start)) (.one (.watch _ _ (.inr (Watch.onFrameOpened_watched ..))))

theorem Moves.answerDue (s : State) (f : Frame) (k : AnswerCode) : Moves c s (s.answerDue f k) := by
  have h : Moves c s s.supersede := by
    unfold State.supersede
    split
    · exact .endAnswer s
    · exact .refl s
  exact .trans h (.trans
    (t := s.supersede.setPend (some
      { phase := .due, sender := f.sender, seq := f.seq, code := k, windowStart := f.fin + Config.windowOpen }))
    (.side rfl) (.rot (.due _)))

theorem Moves.truncate (s : State) : Moves c s s.truncate :=
  .trans (t := s.setAsm s.asm.damaged) (.side rfl) (.damageNotice _ _)

theorem Moves.glitch (s : State) (rotationFirst : Bool) : Moves c s (s.glitch rotationFirst) := by
  have h1 (u : State) : Moves c u u.glitchTruncation := by
    unfold State.glitchTruncation
    split
    · exact .truncate u
    · exact .refl u
  have h2 (u : State) (st : Nat) : Moves c u (u.glitchWindow st) := by
    unfold State.glitchWindow
    split
    · split
      · rename_i h; exact .rot (.passed _ _ h.1)
      · exact .refl u
    · exact .refl u
  unfold State.glitch
  dsimp only
  refine .trans (t := s.setRx (s.rx.release .hunting)) (.side rfl) (.trans (h1 _) ?_)
  split
  · exact .trans (h2 _ _) (.mayClose (State.watchPassed_mayClose _ _))
  · exact .trans (.mayClose (State.watchPassed_mayClose _ _)) (h2 _ _)

theorem Moves.run (s : State) (i : Nat) : Moves c s (s.runTo i) := .side rfl

end

section
variable {a b : Bool}

theorem Moves.takeOrBusy (s : State) (f : Frame) (l : Bool) :
    Moves (.characterDelivered a b) s (s.takeOrBusy f l) := by
  unfold State.takeOrBusy
  split
  · rename_i h
    exact .trans (.one (.record s a b f (.data f.seq l) rfl h))
      (.trans (.one (.accept (s.appendRecord f (.data f.seq l)) a b f.sender f.seq f.fresh rfl)) (.answerDue _ _ _))
  · exact .answerDue _ _ _

theorem Moves.offerFrame (s : State) (f : Frame) : Moves (.characterDelivered a b) s (s.offerFrame f) := by
  unfold State.offerFrame
  split
  · exact .refl s
  · split
    · split
      · unfold State.decideAnswer
        split
        · split
          · exact .answerDue _ _ _
          · exact .answerDue _ _ _
          · exact .takeOrBusy _ _ _
          · exact .takeOrBusy _ _ _
        · exact .refl s
      · exact .refl s
    · unfold State.receiveCast
      split
      · rename_i h; exact .one (.record s a b f .cast rfl h)
      · exact .one (.castLost s a b rfl)
    · exact .refl s

theorem Moves.notice (s : State) (q : EndOrder) (n : AsmNotice) :
    Moves (.characterDelivered a b) s (s.notice q n) := by
  cases n with
  | quiet => exact .refl s
  | opened start kind => exact .openedNotice s start kind
  | damage start => exact .damageNotice s start
  | good f =>
    exact State.goodFrame_keeps (P := Moves (.characterDelivered a b) s) (fun u h => .trans h (.rot (.good _ f)))
      (fun u h => .trans h (.offerFrame u f)) (fun u h => .trans h (.mayClose (State.watchFrameEnd_mayClose u f))) q
      (.refl s)

theorem Moves.deliver (s : State) (q : EndOrder) (k : RxChar) :
    Moves (.characterDelivered a b) s (s.deliver q k) := by
  unfold State.deliver
  dsimp only
  refine .trans (t := s.setAsm (s.asm.deliver s.straps.own s.straps.highest s.now k).1) (.side rfl) ?_
  split
  · exact .trans (.notice _ _ _) (.mayClose (State.watchPassed_mayClose _ _))
  · exact .notice _ _ _

theorem Moves.takeCharacter (s : State) (q : EndOrder) :
    Moves (.characterDelivered a b) s (s.takeCharacter q) := by
  unfold State.takeCharacter
  dsimp only
  by_cases h : s.driver.cond = .finishing
  · rw [if_pos h]; exact .side rfl
  · rw [if_neg h]
    exact .trans (t := s.setRx (s.rx.release (if takenFaulty s.rx = true then .blocked else .hunting))) (.side rfl)
      (.deliver _ _ _)

end

section
variable {c : Instr}

theorem Moves.exchange (s : State) (h : HostCommand) (b : Byte) : Moves c s (State.exchange h b s) := by
  unfold State.exchange
  dsimp only
  split
  · exact .side rfl
  · unfold State.takeParam
    split <;> exact .side rfl

/-- An edge of SCK, or a whole byte, is a move when what acts on the byte is. -/
theorem Moves.sckRise {s : State} {m : Bool} {whole : Byte → State → State}
    (h : ∀ b t, Moves c t (whole b t)) : Moves c s (s.sckRise m whole) := by
  unfold State.sckRise
  split
  · exact .refl s
  · split
    · exact .side rfl
    · exact .trans (t := s.setPort { s.port with bitsIn := [], sckHigh := true }) (.side rfl) (h _ _)

theorem Moves.sckByte {s : State} {b : Byte} {whole : Byte → State → State}
    (h : ∀ b t, Moves c t (whole b t)) : Moves c s (s.sckByte b whole) := by
  unfold State.sckByte
  split
  · exact h b s
  · exact .refl s

theorem Moves.firstByte (s : State) (p : FirstByteStep) : Moves c s (s.firstByte p) := by
  cases p with
  | rise m => exact .sckRise fun _ _ => .side rfl
  | fall => exact .side rfl
  | byte b => exact .sckByte fun _ _ => .side rfl

/-- The steps of a host transaction are moves when its close is. -/
theorem Moves.hostStep {s : State} {h : HostCommand} {p : HostPhase} {close : State → State}
    (hc : p = .close → Moves c s (close s)) : Moves c s (s.hostStep h p close) := by
  unfold State.hostStep
  split
  · cases p with
    | rise m => exact .sckRise fun b t => .exchange t h b
    | fall => exact .side rfl
    | byte b => exact .sckByte fun b t => .exchange t h b
    | close => exact hc rfl
  · exact .refl s

theorem Moves.closeCommand {s : State} {b : Bool} {act : State → State × Result}
    (h : s.rot.station ≠ .strapFault → Moves c s (act s).1) : Moves c s (s.closeCommand b act) := by
  unfold State.closeCommand
  split
  · exact .side rfl
  · rename_i hs
    split
    · exact .trans (h hs) (.side rfl)
    · exact .side rfl

theorem Rotation.on_line {r : Rotation} (h : r.station ≠ .strapFault) (g : r.station ≠ .withdrawn) :
    r.station = .active ∨ r.station = .listen := by
  cases hr : r.station <;> simp_all

theorem Moves.leave {s : State} (h : s.rot.station ≠ .strapFault) : Moves c s s.presentLeave.1 := by
  unfold State.presentLeave
  split
  · exact .refl s
  · rename_i g; exact .rot (.leave _ (Rotation.on_line h g))

theorem Moves.rejoin (s : State) : Moves c s s.presentRejoin.1 := by
  unfold State.presentRejoin
  split
  · rename_i g; exact .rot (.rejoin _ _ g)
  · exact .refl s

theorem Moves.closeStatus (s : State) : Moves c s s.closeStatus := by
  unfold State.closeStatus
  split
  · exact .trans (.rot (.cleared _)) (.side rfl)
  · exact .side rfl

theorem Moves.presentPost {dt : Nat} (s : State) : Moves (.post dt .close) s s.presentPost.1 := by
  unfold State.presentPost
  dsimp only
  split
  · rename_i h; exact .one (.post s dt _ _ _ _ rfl h)
  · exact .refl s

theorem Moves.presentTake {dt : Nat} (s : State) : Moves (.take dt .close) s s.presentTake.1 := by
  unfold State.presentTake
  split
  · exact .refl s
  · split
    · exact .one (.take s dt rfl)
    · exact .refl s

theorem Moves.presentReap {dt : Nat} (s : State) : Moves (.reap dt .close) s s.presentReap.1 := by
  unfold State.presentReap
  split
  · exact .refl s
  · split
    · exact .one (.reap s dt rfl)
    · exact .refl s

theorem Moves.nextStart (s : State) : Moves c s s.toNextStart := by
  unfold State.toNextStart
  split
  · exact .run _ _
  · exact .refl s

theorem Moves.ite {p : Prop} [Decidable p] {s t : State} (h : p → Moves c s t) :
    Moves c s (if p then t else s) := by
  split
  · exact h ‹_›
  · exact .refl s

end

/-- Every command is a run of its moves. -/
theorem exec_moves {c : Instr} {s t : State} (e : exec c s = .next t) : Moves c s t := by
  have adv (d : Nat) : Moves c s (s.advance d) := .side rfl
  cases c <;> simp only [exec] at e <;> injection e with e <;> subst e
  case pinReset dt => exact .trans (adv dt) (.one (.pinReset _ dt rfl))
  case rstnRelease dt a b r l => exact .trans (adv dt) (.ite fun _ => .one (.release _ dt a b r l rfl))
  case characterDelivered => exact .ite fun _ => .trans (.run _ _) (.takeCharacter _ _)
  case startGlitch => exact .ite fun _ => .trans (.run _ _) (.glitch _ _)
  case discardSettle => exact .ite fun _ => .side rfl
  case frameTruncation => exact .ite fun _ => .trans (.run _ _) (.truncate _)
  case characterSent => exact .ite fun _ => .trans (.nextStart s) (.trans (.run _ _) (.charSent _))
  case loss => exact .ite fun _ => .trans (.nextStart s) (.trans (.run _ _) (.mismatch _ _ _))
  case lineFault => exact .ite fun _ => .trans (.nextStart s) (.trans (.run _ _) (.mismatch _ _ _))
  case finishingEnd =>
    refine .ite fun _ => ?_
    split
    · exact .side rfl
    · exact .refl s
  case slotStart => exact .ite fun h => .trans (.run _ _) (.slotStart (s := s.runTo _) h.1 _)
  case secondRestSlotEnd =>
    refine .ite fun h => .trans (.run s (s.rot.baseTime + Config.slotTime * (s.straps.highest + 3))) ?_
    unfold State.restTest
    split
    · exact .rot (.rest _ _ (.inl h.1))
    · exact .rot (.restDue _ h.1)
  case restDueRest => exact .ite fun h => .trans (adv _) (.rot (.rest _ _ (.inl h.2.1)))
  case quietMeasurementRest => exact .ite fun h => .trans (adv _) (.rot (.rest _ _ (.inr h.2)))
  case rotationWindowEnd =>
    split
    · rename_i e _
      refine .ite fun h => .trans (.run s (e + Config.windowClose)) ?_
      dsimp only
      split
      · exact .refl _
      · exact .rot (.passed _ _ h.1)
    · exact .refl s
  case answerWindowStart =>
    split
    · rename_i p _
      refine .ite fun h => .trans (.run s p.windowStart) ?_
      unfold State.answerWindow
      split
      · exact .side rfl
      · exact .endAnswer _
    · exact .refl s
  case watchWindowEnd =>
    split
    · rename_i w e h
      refine .trans (.run s (e + Config.windowClose)) ?_
      dsimp only
      split
      · exact .refl _
      · exact .closeWatch (by simp [h, Watch.watched]) _
    all_goals exact .refl s
  case transactionOpen dt =>
    refine .trans (adv dt) (.ite fun _ => ?_)
    exact .trans (t := (s.advance dt).setPort
      { (s.advance dt).port with
        state := .opened, bitsIn := [], sckHigh := false, command := none, params := [], returned := [],
        opening := some (s.advance dt).readOpening, peerSnapshot := none }) (.side rfl) (.rot (.snapshot _))
  case commandDecode dt p => exact .trans (adv dt) (.ite fun _ => .firstByte _ _)
  case postPayloadByte dt b => exact .trans (adv dt) (.ite fun _ => .sckByte fun b t => .exchange t _ b)
  case voidTransaction dt => exact .trans (adv dt) (.ite fun _ => .side rfl)
  case barredCsnRise dt => exact .trans (adv dt) (.ite fun _ => .side rfl)
  case nop dt p => exact .trans (adv dt) (.hostStep fun _ => .side rfl)
  case unknownCommand dt p => exact .trans (adv dt) (.hostStep fun _ => .side rfl)
  case post dt p => exact .trans (adv dt) (.hostStep fun h => by subst h; exact .closeCommand fun _ => .presentPost _)
  case take dt p => exact .trans (adv dt) (.hostStep fun h => by subst h; exact .closeCommand fun _ => .presentTake _)
  case reap dt p => exact .trans (adv dt) (.hostStep fun h => by subst h; exact .closeCommand fun _ => .presentReap _)
  case status dt p => exact .trans (adv dt) (.hostStep fun _ => .closeStatus _)
  case peer dt p => exact .trans (adv dt) (.hostStep fun _ => .side rfl)
  case cancel dt p => exact .trans (adv dt) (.hostStep fun _ => .closeCommand fun _ => .one (.cancel _ _))
  case flush dt p => exact .trans (adv dt) (.hostStep fun _ => .closeCommand fun _ => .one (.flush _))
  case leave dt p => exact .trans (adv dt) (.hostStep fun _ => .closeCommand .leave)
  case rejoin dt p => exact .trans (adv dt) (.hostStep fun _ => .closeCommand fun _ => .rejoin _)
  case restart dt p =>
    exact .trans (adv dt) (.hostStep fun h => by subst h; exact .closeCommand fun _ => .one (.restart _ dt rfl))
  case startEdge dt =>
    refine .trans (adv dt) ?_
    unfold State.startEdge
    split
    · split <;> exact .side rfl
    · exact .refl _
  case firstRecessiveSample dt => exact .trans (adv dt) (.ite fun _ => .side rfl)
  case dominantSample dt => exact .trans (adv dt) (.ite fun _ => .side rfl)

/-- A property that every move keeps, and that does not look at the queue of commands, is kept by every step. -/
theorem step_keeps {P : State → Prop} (hp : ∀ c s t, Move c s t → P s → P t) {s t : State} (h : P s)
    (e : step s = .next t) : P t := by
  unfold step at e
  split at e
  · injection e with e; subst e; exact h
  · rename_i c rest _
    exact Moves.keeps (hp c) (exec_moves e) (hp c s { s with pending := rest } (.side rfl) h)

end Sys2Proof.Machine
end

