-- ==== Sys2Proof/WellFormed.lean ====
section
/-! DEFINITION. Well-formed commands: the samples reported with a compare agree with what the command
says of them. A command that is not well-formed is not the event it names, and the machine takes none from it. -/

namespace Sys2Proof

open Sys2Proof.Machine

/-- A read-back mismatch report is the event it names: a loss reads dominant in a cell other than the start cell (R13),
a line fault reads recessive in a cell other than the stop cell, which is always sent recessive (R5, R14). -/
def compareOk (cell : Fin 11) (tap : Tap) (read : Level) (never : Nat) : Bool :=
  majority tap == read && cell.val != never

/-- The operand checks: a sent character's stop cell reads recessive (R12), a loss and a line fault as `compareOk` says.
Every other operand has a type that admits only what its rule allows. -/
def wellFormed (i : Instr) : Bool :=
  match i with
  | .startGlitch _ => true
  | .characterSent tap => majority tap == .recessive
  | .loss cell tap => compareOk cell tap .dominant 0
  | .lineFault cell tap => compareOk cell tap .recessive 10
  | .pinReset _ => true
  | .rstnRelease _ _ _ _ _ => true
  | .characterDelivered _ _ => true
  | .discardSettle => true
  | .frameTruncation => true
  | .finishingEnd _ => true
  | .slotStart => true
  | .secondRestSlotEnd => true
  | .restDueRest => true
  | .quietMeasurementRest => true
  | .rotationWindowEnd => true
  | .answerWindowStart => true
  | .watchWindowEnd => true
  | .transactionOpen _ => true
  | .commandDecode _ _ => true
  | .postPayloadByte _ _ => true
  | .voidTransaction _ => true
  | .barredCsnRise _ => true
  | .nop _ _ => true
  | .post _ _ => true
  | .take _ _ => true
  | .reap _ _ => true
  | .status _ _ => true
  | .peer _ _ => true
  | .cancel _ _ => true
  | .flush _ _ => true
  | .leave _ _ => true
  | .rejoin _ _ => true
  | .restart _ _ => true
  | .unknownCommand _ _ => true
  | .startEdge _ => true
  | .firstRecessiveSample _ => true
  | .dominantSample _ => true

end Sys2Proof
end

