-- ==== Sys2Proof/Tests/Slice0.lean ====
section
/-! SUPPORT. Tests of the model. A `test_` theorem's expected values come from the spec's rules, tables and worked sequences,
as its docstring says; a `witness_` theorem gives a state and operands that meet the hypotheses of an obligation. -/

namespace Sys2Proof.Tests

open Sys2Proof Sys2Proof.Machine

/- The kernel evaluations below run one after another: side by side each waits on those before it in a thread of its own. -/
set_option Elab.async false

/-! ## States -/

/-- Station 0 of section 10.1: straps S = 0 and H = 2, in LISTEN at instant 0, the line never dominant, its assembler IDLE
and its receiver armed. -/
def up : State :=
  { State.reset with
    rstLow := false
    straps := { own := 0, highest := 2, rate := 0, valid := true }
    rx := { Receiver.init with awaitRecessive := false }
    asm := { Assembler.init with cond := .idle } }

/-- A quiet timer that shows `n` samples since instant 0. -/
def quietFor (n : Nat) : QuietTimer := { elapsed := n, lastDominant := 0, since := 0 }

/-- The same station ACTIVE after a rest at instant 0, with 48 T of quiet behind it. -/
def active : State :=
  { up with
    rot := up.rot.rest 0
    quiet := quietFor 768 }

/-- The transmit entry of section 10.1: tag 41h to station 2, 10 bytes, in block 0. -/
def entry41 : TxEntry :=
  { ref := 0, tag := 0x41, dest := 2, length := 10, blocks := [0], state := .waiting, returnState := .waiting, attempts := 0,
    busyAnswers := 0, attemptedEver := false, cancelPending := false }

/-- The entry as the emitter has taken it. -/
def flying41 : TxEntry := { entry41 with state := .inFlight, attempts := 1, attemptedEver := true }

/-- A CAST entry of four bytes. -/
def entryCast : TxEntry := { entry41 with tag := 0x09, dest := 31, length := 4 }

/-- The station ACTIVE with entries queued. -/
def queued (q : List TxEntry) : State :=
  { active with txq := q, nextRef := 4, pool := { active.pool with holders := .transmit 0 :: List.replicate 63 .free } }

/-- The next state of an outcome, or the reset state. -/
def nextOf (o : Host.Outcome State Fault Refusal) : State :=
  match o with
  | .next s => s
  | .fault _ => State.reset
  | .refused _ => State.reset

/-- The state after commands. -/
def after (s : State) (cs : List Instr) : State := cs.foldl (fun s c => nextOf (exec c s)) s

/-- The station with the host port OPEN in a transaction whose byte 0 selected a command. -/
def inCommand (s : State) (c : HostCommand) (params returned : List Byte) : State :=
  { s with port :=
    { s.port with
      state := .opened, command := some c, params := params, returned := returned, opening := some s.readOpening } }

/-- Three samples that read alike. -/
def steady (l : Level) : Tap := { a := l, b := l, c := l }

/-- The dominant samples of an undisturbed character, its stop cell read at a level (R5). -/
def lowsOf (data : Byte) (edge : Bool) (stop : Level) : List Nat :=
  (List.range 176).filter fun k =>
    (if k < 160 then charLevel { data := data, edge := edge } (k / 16) else stop) == .dominant

/-- A receiver that has read a character whose start cell began at `i`. -/
def hearing (i : Nat) (lows : List Nat) : Receiver :=
  { Receiver.init with cond := .receiving, awaitRecessive := false, startInstant := i, lows := lows }

/-- The station receiving the last character of a frame whose earlier characters its assembler holds. -/
def atLast (s : State) (bytes : List Byte) : State :=
  { s with
    now := 1000 + 176 * (bytes.length - 1) + 20
    asm := (assembleAll s.straps.own s.straps.highest s.asm .quiet
      ((receivedChars bytes 1000 false).take (bytes.length - 1))).1
    rx := hearing (1000 + 176 * (bytes.length - 1)) (lowsOf (bytes.getLastD 0) false .recessive) }

/-- The frame of a good-frame notice. -/
def frameOf (bytes : List Byte) (own h : Nat) : Frame :=
  match (assembleAll own h { Assembler.init with cond := .idle } .quiet (receivedChars bytes 1000 false)).2 with
  | .good f => f
  | .quiet => (Assembler.init).frame 0 0
  | .opened _ _ => (Assembler.init).frame 0 0
  | .damage _ => (Assembler.init).frame 0 0

/-- A CAST of one byte from station 1. -/
def castBytes : List Byte := frameBytes (castHeader 1 1) [0xA5]

/-- A DATA of one byte from station 1 to station 0, with FRESH. -/
def dataBytes : List Byte := frameBytes (dataHeader 1 0 0 true 1) [0xA5]

/-- An ANSWER from station 2 to station 0, seq 0, TAKEN. -/
def answerBytes : List Byte := frameBytes (answerHeader 2 0 0 .taken) []

/-! ## Well-formed commands -/

/-- A sent character's stop cell reads recessive (R12). -/
theorem test_wf_sent : wellFormed (.characterSent { a := .dominant, b := .recessive, c := .dominant }) = false := by decide
/-- A loss reads dominant, and no start cell is sent recessive (R5, R13). -/
theorem test_wf_loss : wellFormed (.loss 3 (steady .recessive)) = false ∧ wellFormed (.loss 0 (steady .dominant)) = false ∧
    wellFormed (.loss 10 (steady .dominant)) = true := by decide
/-- A line fault reads recessive, and no stop cell is sent dominant (R5, R14). -/
theorem test_wf_lineFault : wellFormed (.lineFault 3 (steady .dominant)) = false ∧
    wellFormed (.lineFault 10 (steady .recessive)) = false ∧ wellFormed (.lineFault 0 (steady .recessive)) = true := by
  decide

/-! ## Encodings of the manual -/

/-- The check of the CRC computation that section 2.1 gives: 31h to 39h leave the register at 29B1h. -/
theorem test_crc_check : crcOf [0x31, 0x32, 0x33, 0x34, 0x35, 0x36, 0x37, 0x38, 0x39] = 0x29B1 := by decide +kernel
/-- The header of station 2's ANSWER in section 10.1: 62h, 00h, 00h. -/
theorem test_answer_header : answerHeader 2 0 0 .taken = [0x62, 0x00, 0x00] := by decide
/-- The header of station 2's ANSWER in section 10.2: 62h, 20h, 01h. -/
theorem test_answer_again_header : answerHeader 2 1 0 .takenAgain = [0x62, 0x20, 0x01] := by decide
/-- No row of the table gives bits, so no word spells a command. -/
theorem test_no_word_spells : decodeTableWord 16 0x41 = none := by decide
/-- The command table's values, and one outside it (R156). -/
theorem test_command_bytes : [0x00, 0x10, 0x20, 0x30, 0x40, 0x41, 0x50, 0x51, 0x60, 0x61, 0x7E, 0x11].map commandOfByte =
    [.nop, .post, .take, .reap, .status, .peer, .cancel, .flush, .leave, .rejoin, .restart, .unknown] := by decide
/-- The bits of a character from its samples (R5, R8): one disturbed sample of three does not change a bit (R6). -/
theorem test_samples :
    let r := hearing 0 ((lowsOf 0x62 true .recessive).filter (· ≠ 24) ++ [40])
    takenData r = 0x62 ∧ takenEdge r = true ∧ takenFaulty r = false ∧ r.confirmed = true ∧
    takenFaulty (hearing 0 (lowsOf 0x62 true .dominant)) = true := by decide +kernel
/-- The bits taken so far, start bit first, at the mid-bit of cell 3 and one sample before it (R6, R17). -/
theorem test_bits_taken :
    (hearing 0 (lowsOf 0x05 false .recessive)).bitsTaken 57 = [false, true, false, true] ∧
    (hearing 0 (lowsOf 0x05 false .recessive)).bitsTaken 56 = [false, true, false] := by decide +kernel

/-! ## One step of each command -/

/-- PIN_RESET empties the queues and keeps the contents of the pool (R3, R128, R139). -/
theorem test_pinReset :
    let t := nextOf (exec (.pinReset 5) { queued [entry41] with pool := { (queued []).pool with cells := [(0, 7)] } })
    t.txq = [] ∧ t.pool.freeCount = 64 ∧ readCell t.pool.cells 0 = 7 ∧ t.rstLow = true ∧ t.now = 5 := by decide
/-- RSTN_RELEASE with S above H: STRAP_FAULT, the change flag and ATTN (R2). -/
theorem test_release_fault :
    let t := nextOf (exec (.rstnRelease 0 6 5 0 true) State.reset)
    t.rot.station = .strapFault ∧ t.attn = true ∧ t.port.state = .barred ∧ t.straps.valid = false := by decide
/-- START_EDGE begins a character at that sample (R7). -/
theorem test_startEdge : (nextOf (exec (.startEdge 3) up)).rx =
    { cond := .receiving, awaitRecessive := false, startInstant := 3, driven := false, lows := [0] } := by decide
/-- FIRST_RECESSIVE_SAMPLE ends BLOCKED (R9). -/
theorem test_firstRecessive :
    (nextOf (exec (.firstRecessiveSample 1) { up with rx := { up.rx with cond := .blocked } })).rx.cond = .hunting := by
  decide
/-- DOMINANT_SAMPLE starts the quiet timer again (R10). -/
theorem test_dominant : (nextOf (exec (.dominantSample 9) active)).quiet =
    { elapsed := 0, lastDominant := 9, since := 10 } := by decide
/-- A last dominant sample in the edge cell of a frame's last character, the last but one cell: the timer reads 4 9/16 T at the
window start, 4 T after the mid-bit of the stop cell (R90), and 4 T at 4 T after the first recessive sample (R9). -/
theorem test_quiet_at_window_start :
    let t := nextOf (exec (.dominantSample 159) up)
    (t.runTo (169 + 64)).quiet.elapsed = 73 ∧ (t.runTo (160 + 64)).quiet.elapsed = 64 := by decide
/-- START_GLITCH leaves the receiver HUNTING at sample 9 (R7). -/
theorem test_glitch :
    let t := nextOf (exec (.startGlitch true) { up with rx := hearing 0 [0, 1, 7] })
    t.rx.cond = .hunting ∧ t.now = 9 := by decide
/-- CHARACTER_DELIVERED of the last character of a good CAST from station 1 anchors with B = 2 and slot 0 at E + 4 T, and the
message is recorded in one block (section 10.1, R43, R143). -/
theorem test_cast_received :
    let t := nextOf (exec (.characterDelivered true true) (atLast up castBytes))
    t.rot.base = 2 ∧ t.rot.baseTime = 1000 + 176 * 6 - 7 + 64 ∧ t.pool.freeCount = 63 ∧
    t.rxq.records.map (fun r => (r.source, r.length, r.castsLost)) = [(1, 1, 0)] ∧ readCell t.pool.cells 0 = 0xA5 := by
  decide +kernel
/-- The same character with a data bit disturbed is damage at the frame end (R26, R50). -/
theorem test_cast_damaged :
    let u := atLast active castBytes
    let flipped := { u with rx := { u.rx with lows := lowsOf (castBytes.getLastD 0 ^^^ 1) false .recessive } }
    let t := nextOf (exec (.characterDelivered true true) flipped)
    t.rot.station = .listen ∧ t.rot.damaged = 1 ∧ t.asm.cond = .discarding ∧ t.rxq.records = [] := by decide +kernel
/-- FRAME_TRUNCATION at the due instant plus 2 T (R25). -/
theorem test_truncation :
    let t := nextOf (exec .frameTruncation { active with asm := { active.asm with cond := .inFrame, dueInstant := 176 } })
    t.now = 208 ∧ t.rot.damaged = 1 ∧ t.rot.station = .listen := by decide
/-- DISCARD_SETTLE after 4 T of quiet (R28). -/
theorem test_settle :
    let t := nextOf (exec .discardSettle { up with asm := Assembler.init })
    t.asm.cond = .idle ∧ t.now = 64 ∧ t.quiet.elapsed = 64 := by decide
/-- SLOT_START of station 0's slot 0 in section 10.1: seq 0 with FRESH to station 2, from station 0. -/
theorem test_own_turn :
    let t := nextOf (exec .slotStart (queued [entry41]))
    t.em.header = [0x20, 0x02, 0x8A] ∧ t.em.count = 15 ∧ t.driver.cond = .driving ∧ t.ltxLow = true ∧
    t.txq.map (fun e => (e.state, e.returnState)) = [(.inFlight, .waiting)] ∧
    t.watch = .noted { entry := 0, dest := 2, seq := 0 } ∧ t.rot.position = .frame := by decide
/-- SLOT_START with nothing to send (section 10.1). -/
theorem test_slot_passes :
    let t := nextOf (exec .slotStart { active with rot := { active.rot with nextSlot := 1 } })
    t.now = 384 ∧ t.rot.slotIndex = 1 ∧ t.driver.cond = .idle := by decide
/-- The station driving the last character of the CAST, its stop cell still to be compared. -/
def castDone : State :=
  let t := nextOf (exec .slotStart (queued [entryCast]))
  { t with em := { t.em with index := t.em.count - 1 } }
/-- CHARACTER_SENT of the last character: SENT, attempts 0, the blocks free (section 10.1, R111). -/
theorem test_sent_cast :
    let t := nextOf (exec (.characterSent (steady .recessive)) castDone)
    t.compq = [{ tag := 0x09, dest := 31, outcome := .sent, attempts := 0, busyAnswers := 0 }] ∧ t.pool.freeCount = 64 ∧
    t.em.cond = .idle ∧ t.now = 169 := by decide
/-- LOSS in cell 8: the entry waits again, and both counts rise (R13, R55, R113). -/
theorem test_loss :
    let t := nextOf (exec (.loss 6 (steady .dominant)) (nextOf (exec .slotStart (queued [entry41]))))
    t.txq = [{ entry41 with returnState := .waiting }] ∧ t.rot.faultCount = 1 ∧ t.rot.losses = 1 ∧
    t.rot.station = .listen ∧ t.driver.cond = .idle ∧ t.now = 105 ∧ t.watch = .shut := by decide
/-- LINE_FAULT in the start cell (R14). -/
theorem test_lineFault :
    let t := nextOf (exec (.lineFault 0 (steady .recessive)) (nextOf (exec .slotStart (queued [entry41]))))
    t.rot.faultCount = 1 ∧ t.em.cond = .idle ∧ t.now = 9 := by decide
/-- FINISHING_END at the end of the stop cell (R16). -/
theorem test_finishing :
    let t := nextOf (exec (.finishingEnd none) { up with driver := { Driver.init with cond := .finishing } })
    t.driver.cond = .idle ∧ t.now = 176 ∧ t.rx.awaitRecessive = true := by decide
/-- SECOND_REST_SLOT_END with 48 T of quiet: the rest at 24(H+3) T (R40). -/
theorem test_rest :
    let t := nextOf (exec .secondRestSlotEnd active)
    t.now = 384 * 5 ∧ t.rot.baseTime = 1920 ∧ t.rot.rests = 2 ∧ t.rot.base = 0 := by decide
/-- REST_DUE_REST waits for 48 T of quiet (R40). -/
theorem test_restDue :
    let t := nextOf (exec .restDueRest
      { active with rot := { active.rot with position := .restDue }, quiet := quietFor 700 })
    t.now = 68 ∧ t.rot.position = .slot := by decide
/-- QUIET_MEASUREMENT_REST at Q = 124 T for H = 2 (section 10.2). -/
theorem test_measurement :
    let t := nextOf (exec .quietMeasurementRest up)
    t.now = 124 * 16 ∧ t.rot.station = .active ∧ t.rot.rests = 1 := by decide
/-- The station following the window of a DATA that ended at instant 0. -/
def inWindowState : State :=
  { active with rot := { active.rot with position := .window, tracked := some 0, baseTime := 448 } }
/-- ROTATION_WINDOW_END at E + 28 T: slot 0 begins (R47). -/
theorem test_windowEnd :
    let t := nextOf (exec .rotationWindowEnd inWindowState)
    t.now = 448 ∧ t.rot.position = .slot ∧ t.rot.slotIndex = 0 ∧ t.rot.tracked = none := by decide
/-- A DUE answer to station 1. -/
def dueAnswer : PendingAnswer := { phase := .due, sender := 1, seq := 0, code := .taken, windowStart := 64 }
/-- ANSWER_WINDOW_START: the ANSWER begins in any station state (R90). -/
theorem test_answerStart :
    let t := nextOf (exec .answerWindowStart { active with pend := some dueAnswer })
    t.em.header = [0x60, 0x01, 0x00] ∧ t.em.count = 5 ∧ t.now = 64 ∧ t.driver.cond = .driving := by decide
/-- WATCH_WINDOW_END: no answer, the attempt stands, the entry OUTSTANDING again (R95, R102). -/
theorem test_watchEnd :
    let t := nextOf (exec .watchWindowEnd
      { queued [flying41] with watch := .opened { entry := 0, dest := 2, seq := 0 } 0 })
    t.watch = .shut ∧ t.txq.map (fun e => (e.state, e.attempts)) = [(.outstanding, 1)] := by decide
/-- The transaction of a POST of one byte to station 2, its byte 0 sent by edges of SCK, four bits of a sixth byte lost at the
close (R104, R154 to R158, R164, R165). -/
def posting : List Instr :=
  .transactionOpen 1 :: (bitsOf 0x10).flatMap (fun m => [.commandDecode 1 .fall, .commandDecode 1 (.rise m)]) ++
  [.post 1 .fall, .post 1 (.byte 2), .post 1 (.byte 0x41), .post 1 (.byte 1), .postPayloadByte 1 0x5A] ++
  (List.replicate 4 true).flatMap (fun m => [.post 1 (.rise m), .post 1 .fall]) ++ [.post 1 .close]
/-- A POST through its transactions: one WAITING entry in block 0, filled from the staging buffer (R105, R130). -/
theorem test_post :
    let t := after up posting
    t.txq.map (fun e => (e.tag, e.dest, e.length, e.blocks)) = [(0x41, 2, 1, [0])] ∧ t.port.lastResult = .ok ∧
    t.port.state = .idle ∧ t.pool.freeCount = 63 ∧ readCell t.pool.cells 0 = 0x5A := by
  decide +kernel
/-- MISO shows the STATUS byte 2 of a station WITHDRAWN by request, 06h, from the falling edge after byte 1, most significant
bit first, and is high-impedance outside the transaction (R154, section 9.3). -/
theorem test_miso :
    let s := { up with rot := { up.rot with station := .withdrawn, cause := .request } }
    let byte2 := (List.range 8).map fun k => (after s ([.transactionOpen 0, .commandDecode 0 (.byte 0x40),
      .status 0 (.byte 0)] ++ (List.replicate k true).flatMap fun m => [.status 0 (.rise m), .status 0 .fall])).misoBit
    byte2 = (bitsOf 0x06).map some ∧ s.misoBit = none := by decide +kernel
/-- The summary byte of a station in LISTEN with nothing queued, then the last result 00h (R160, section 9.3). -/
theorem test_status_bytes :
    (after up [.transactionOpen 0, .commandDecode 0 (.byte 0x40), .status 0 (.byte 0), .status 0 (.byte 0)]).port.returned =
      [0x00, 0x00, 0x04] := by decide +kernel
/-- An unknown byte 0 (R158), a void transaction (R159). -/
theorem test_unknown_and_void :
    (after up [.transactionOpen 0, .commandDecode 0 (.byte 0xFF), .unknownCommand 0 .close]).port.lastResult = .unknownCommand ∧
    (after up [.transactionOpen 0, .voidTransaction 0]).port.state = .idle ∧
    (after { up with port := { up.port with state := .barred } } [.transactionOpen 0, .barredCsnRise 0]).port.state =
      .idle := by decide
/-- CANCEL and FLUSH of a WAITING entry (R121, R125); NOT_FOUND for another tag. -/
theorem test_cancel_flush :
    (after (inCommand (queued [entry41]) .cancel [] []) [.cancel 0 (.byte 0x41), .cancel 0 .close]).compq.map
      (fun r => (r.tag, r.outcome)) = [(0x41, .cancelled)] ∧
    (after (inCommand (queued [entry41]) .cancel [0x42] []) [.cancel 0 .close]).port.lastResult = .notFound ∧
    (after (inCommand (queued [flying41]) .flush [] []) [.flush 0 .close]).port.lastResult = .deferred := by decide
/-- LEAVE and REJOIN (R60, R62), NOP (R163). -/
theorem test_leave_rejoin :
    (after (inCommand active .leave [] []) [.leave 0 .close]).rot.station = .withdrawn ∧
    (after (inCommand active .rejoin [] []) [.rejoin 0 .close]).port.lastResult = .wrongState ∧
    (after (inCommand active .nop [] []) [.nop 0 .close]).port.lastResult = .ok := by decide
/-- RESTART keeps the straps and sets the change flag (R174). -/
theorem test_restart :
    let t := after (inCommand (queued [entry41]) .restart [] []) [.restart 0 .close]
    t.txq = [] ∧ t.straps = up.straps ∧ t.rot.changeFlag = true ∧ t.port.lastResult = .ok := by decide
/-- REAP returns the five bytes of the completion record and removes it; TAKE on an empty queue (R119, R149, R167). -/
theorem test_reap_take :
    let c : CompletionRecord := { tag := 0x41, dest := 2, outcome := .delivered, attempts := 1, busyAnswers := 0 }
    let t := after { up with compq := [c] }
      ([.transactionOpen 0, .commandDecode 0 (.byte 0x30)] ++ List.replicate 6 (.reap 0 (.byte 0)) ++ [.reap 0 .close])
    t.port.returned = [0x40, 0x00, 0x41, 0x02, 0x00, 0x01, 0x00] ∧ t.compq = [] ∧
    (after up [.transactionOpen 0, .commandDecode 0 (.byte 0x20), .take 0 .close]).port.lastResult = .empty := by decide
/-- PEER of a station in use shows the reset entry; of this station it is INVALID (R82, R170). -/
theorem test_peer :
    (after up [.transactionOpen 0, .commandDecode 0 (.byte 0x41), .peer 0 (.byte 2), .peer 0 (.byte 0), .peer 0 (.byte 0),
      .peer 0 .close]).port.returned = [0x00, 0x00, 0x02, 0x08] ∧
    (after up [.transactionOpen 0, .commandDecode 0 (.byte 0x41), .peer 0 (.byte 0), .peer 0 .close]).port.lastResult =
      .invalid := by decide
/-- The step idles on an empty queue, and takes the front command otherwise (assumption log 3). -/
theorem test_step : step State.reset = .next State.reset ∧
    (nextOf (step { up with pending := [.dominantSample 1, .slotStart] })).pending = [.slotStart] :=
  ⟨rfl, rfl⟩

/-! ## Witnesses: a state and operands that meet the hypotheses of each statement, at the bounds of its clauses -/

/-- A driver whose stop cell is compared, with a character presented next or with none. -/
def comparedDriver (next : Option LineChar) : Driver :=
  { cond := .driving, char := { data := 0, edge := true }, charStart := 0, sent := true, next := next }
theorem witness_StepRunsTheFrontCommand : exec (.dominantSample 0) up = .next (nextOf (exec (.dominantSample 0) up)) := rfl
/-- An emitter with a second character of its CAST to place. -/
def placing : Emitter :=
  { Emitter.init with
    cond := .emitting, source := .transmit 0 .cast, header := castHeader 0 4, blocks := [0], length := 4, count := 9 }
/-- The stop cell's end at 176 with a character presented and with none, and the sample before it; the start of a stop cell
at 160 and the sample before it (R11, R34); the next character presented in the same run of samples, at 336. -/
theorem witness_PassingSamplesMoveOnlyTheClocks :
    let next : LineChar := { data := 0x1F, edge := false }
    let s (d : Driver) := { up with driver := d, em := placing }
    (up.rstLow = false ∧ up.straps.valid = true) ∧ State.reset.rstLow = true ∧
    ((comparedDriver none).cond = .driving ∧ (comparedDriver none).sent = true ∧
      (comparedDriver none).charStart + 176 ≤ 0 + 176 ∧ placing.cond = .emitting ∧ placing.index + 1 < placing.count) ∧
    ((s (comparedDriver (some next))).advance 335).driver =
      { comparedDriver none with char := next, charStart := 176, sent := false } ∧
    ((s (comparedDriver (some next))).advance 336).driver.next = some next ∧
    ({ up with driver := comparedDriver none }.advance 175).driver = comparedDriver none ∧
    ((s { comparedDriver none with sent := false }).advance 159).driver.next = none ∧
    ((s { comparedDriver none with sent := false }).advance 160).driver.next = some next := by decide +kernel
theorem witness_PinResetAndRelease : State.reset.rstLow = true ∧
    (nextOf (exec (.rstnRelease 0 30 30 3 false) State.reset)).straps.valid = true ∧
    (nextOf (exec (.rstnRelease 0 0 1 0 false) State.reset)).straps.valid = true ∧
    (nextOf (exec (.rstnRelease 0 0 0 0 false) State.reset)).straps.valid = false ∧
    (nextOf (exec (.rstnRelease 0 0 31 0 false) State.reset)).straps.valid = false ∧
    (nextOf (exec (.rstnRelease 0 3 2 0 false) State.reset)).straps.valid = false := by decide
/-- A receiver that is RECEIVING takes the sample; one that is BLOCKED returns to HUNTING; the clauses on the bits at their
bounds: no bit taken at sample 8, and all eleven at sample 169. -/
theorem witness_SamplesReachTheReceiver :
    let r := hearing 0 (lowsOf 0x62 true .recessive)
    (up.rstLow = false ∧ up.straps.valid = true) ∧
    (nextOf (exec (.dominantSample 7) { up with rx := hearing 0 [0] })).rx.lows = [0, 7] ∧
    [7, 8, 9, 70000].map (fun i => ((nextOf (exec (.dominantSample 7) up)).runTo i).quiet.elapsed) = [0, 0, 1, 65535] ∧
    ({ up with rx := { up.rx with cond := .blocked } } : State).rx.cond = .blocked ∧
    r.bitsTaken 8 = [] ∧ r.bitsTaken 169 = (List.range 11).map r.bit ∧
    (∀ n, n < 11 → (r.startInstant + 16 * n + 9 ≤ 8 ↔ n < 0)) ∧
    (∀ n, n < 11 → (r.startInstant + 16 * n + 9 ≤ 169 ↔ n < 11)) := by
  refine ⟨by decide, by decide, by decide, rfl, by decide +kernel, by decide +kernel, ?_, ?_⟩ <;> intro n h <;>
    simp only [hearing] <;> omega
/-- The start cell of the character being driven, at its first and last sample, and the sample after it (R15). -/
theorem witness_StartEdgeResult :
    let d := { (comparedDriver none) with sent := false }
    let s := { up with driver := d }
    (s.rstLow = false ∧ s.straps.valid = true ∧ s.rx.cond = .hunting ∧ s.rx.awaitRecessive = false) ∧
    (nextOf (exec (.startEdge 0) s)).rx.driven = true ∧ (nextOf (exec (.startEdge 15) s)).rx.driven = true ∧
    (nextOf (exec (.startEdge 16) s)).rx.driven = false ∧ Receiver.init.awaitRecessive = true ∧
    (nextOf (exec (.startEdge 4) { up with rx := hearing 0 [0] })).rx = hearing 0 [0, 4] := by decide
/-- A station receiving a character that began at instant 440, within the window of a DATA that ended at 0, no sample read
dominant around the mid-bit of its start cell. -/
def glitching (s : State) : State := { s with now := 448, rx := hearing 440 [0] }
/-- The watch of section 10.1 OPEN from instant 0. -/
def open41 : Watch := .opened { entry := 0, dest := 2, seq := 0 } 0
/-- The DATA's own sender, its window and its watch both waiting, in either order, with leaving-pending clear and set; a
frame to truncate, at its bound, whose damage the watch takes or not; and neither wait. -/
theorem witness_StartGlitchResult :
    let s := { glitching inWindowState with watch := open41, txq := [flying41] }
    let inFrame (start due : Nat) (w : Watch) := { s with
      asm := { s.asm with cond := .inFrame, startInstant := start, dueInstant := due }, watch := w }
    let leaving := { s with rot := { s.rot with leaving := true, answerWatch := true } }
    (s.rstLow = false ∧ s.straps.valid = true ∧ s.rx.cond = .receiving ∧ s.rx.bit 0 = true ∧
      s.now ≤ s.rx.startInstant + 9) ∧
    (¬ (s.asm.cond = .inFrame ∧ s.asm.dueInstant + 32 ≤ 449) ∧ (inFrame 4 417 open41).asm.cond = .inFrame ∧
      (inFrame 4 417 open41).asm.dueInstant + 32 ≤ 449 ∧ ¬ (inFrame 4 418 open41).asm.dueInstant + 32 ≤ 449) ∧
    (s.watch.watched = some { entry := 0, dest := 2, seq := 0 } ∧ watchWaited s.watch s.rx.startInstant 449 ∧
      watchTakes (inFrame 4 417 open41).watch 4 ∧ ¬ watchWaited .shut s.rx.startInstant 449 ∧
      ¬ watchTakes .shut 4) ∧
    (∀ r, let t := nextOf (exec (.startGlitch r) s)
      t.watch = .shut ∧ t.rot.position = .slot ∧ t.txq.map (·.state) = [.outstanding] ∧
      (nextOf (exec (.startGlitch r) leaving)).rot.station = .withdrawn) ∧
    (nextOf (exec (.startGlitch true) (inFrame 4 417 .shut))).asm.cond = .discarding ∧
    (nextOf (exec (.startGlitch true) (inFrame 4 418 .shut))).asm.cond = .inFrame := by
  refine ⟨by decide, by decide, ⟨rfl, ⟨_, _, rfl, ⟨by decide, by decide⟩, by decide⟩,
    .inl ⟨_, _, rfl, by decide, by decide⟩, ?_, ?_⟩, by decide, by decide, by decide⟩
  · rintro ⟨x, e, h, -⟩; exact Watch.noConfusion h
  · rintro (⟨x, e, h, -⟩ | ⟨x, e, y, h, -⟩) <;> exact Watch.noConfusion h
/-- A station receiving a character that began at instant `i`. -/
def receiving (s : State) (i : Nat) : State := { s with now := i + 20, rx := hearing i [0, 7, 8, 9] }
/-- A station that has received a character which began at instant `i`, its stop cell still to be taken. -/
def received (s : State) (i : Nat) (data : Byte) (edge : Bool) (stop : Level) : State :=
  { receiving s i with rx := hearing i (lowsOf data edge stop) }
/-- A character with its start confirmed is being received (R8). -/
theorem takes_of {s : State} (h : s.rstLow = false ∧ s.straps.valid = true ∧ s.rx.cond = .receiving ∧
    s.rx.confirmed = true ∧ s.driver.cond ≠ .finishing) : takesCharacter s := h
/-- Char 0 of a CAST from station 2 in each position of the station; within its window and at E and E + 28 T, outside it;
held in time from E + 3 T to E + 12 T. -/
theorem witness_CharacterOpensAFrame :
    let s (u : State) (i : Nat) := received u i 0x42 true .recessive
    let u : State := { active with watch := open41 }
    let t (v : State) := nextOf (exec (.characterDelivered true true) v)
    (∀ v ∈ [active, inWindowState, u], ∀ i ∈ [0, 100, 448], takesCharacter (s v i)) ∧
    ((s active 100).asm.cond = .idle ∧ takenFaulty (s active 100).rx = false ∧ takenEdge (s active 100).rx = true ∧
      kindOf (takenData (s active 100).rx) = some .cast ∧ stationField (takenData (s active 100).rx) ≠ 31 ∧
      stationField (takenData (s active 100).rx) ≤ active.straps.highest) ∧
    (active.rot.station = .active ∧ active.rot.position = .slot ∧ up.rot.station ≠ .active) ∧
    (inWindowState.rot.station = .active ∧ inWindowState.rot.tracked = some 0 ∧ inWindowState.rot.position = .window) ∧
    (¬ inWindowOf 0 0 ∧ inWindowOf 0 1 ∧ inWindowOf 0 447 ∧ ¬ inWindowOf 0 448) ∧
    (∀ i ∈ [0, 448], (t (s inWindowState i)).rot = inWindowState.rot ∧ (t (s u i)).watch = open41) ∧
    (∀ i ∈ [1, 447], (t (s inWindowState i)).rot.position = .frame) ∧
    ∀ i ∈ [47, 48, 192, 193], (t (s u i)).watch =
      .holding { entry := 0, dest := 2, seq := 0 } 0
        { start := i, kind := .cast, inTime := decide (48 ≤ i ∧ i ≤ 192) } := by
  refine ⟨?_, by decide +kernel⟩
  intro v hv i hi
  simp only [List.mem_cons, List.not_mem_nil, or_false] at hv hi
  rcases hv with rfl | rfl | rfl <;> rcases hi with rfl | rfl | rfl <;> exact takes_of (by decide +kernel)
/-- The assembler after the first `n` characters of the DATA. -/
def assembling (n : Nat) : Assembler :=
  (assembleAll 0 2 up.asm .quiet ((receivedChars dataBytes 1000 false).take n)).1
/-- The same with what a damage notice leaves in it. -/
def discarded (a : Assembler) : Assembler :=
  { a with cond := .discarding, buffer := [], count := 0, expected := none, crc := 0xFFFF }
/-- The four forms of damage: edge bit 0 in IDLE, a number above H in char 0, edge bit 1 in an open frame, and a CRC that
does not match; each with a watch that has no part in the frame, and a damaged char 0 whose stop bit is dominant. -/
theorem witness_CharacterFoundDamaged :
    let s (e : Bool) (d : Byte) := received active 100 d e .recessive
    let f (n : Nat) (e : Bool) := { received active 1880 0x00 e .recessive with asm := assembling n }
    (takesCharacter (s false 0x42) ∧ damageAt (s false 0x42) 100 (discarded active.asm)) ∧
    (takesCharacter (s true 0x43) ∧ damageAt (s true 0x43) 100 { discarded active.asm with
      startInstant := 100, dueInstant := 276, ownSoFar := false }) ∧
    (takesCharacter (f 3 true) ∧ damageAt (f 3 true) 1000 (discarded (assembling 3))) ∧
    (takesCharacter (f 5 false) ∧
      damageAt (f 5 false) 1000 { discarded (assembling 5) with dueInstant := 2056 }) ∧
    ¬ watchTakes active.watch 1000 ∧ takenFaulty (received active 100 0x42 true .dominant).rx = true := by
  refine ⟨⟨takes_of (by decide +kernel), .inl (by decide +kernel)⟩,
    ⟨takes_of (by decide +kernel), .inr (.inl (by decide +kernel))⟩,
    ⟨takes_of (by decide +kernel), .inr (.inr (.inl (by decide +kernel)))⟩,
    ⟨takes_of (by decide +kernel), .inr (.inr (.inr (by decide +kernel)))⟩, ?_, by decide +kernel⟩
  rintro (⟨x, e, h, -⟩ | ⟨x, e, y, h, -⟩) <;> exact Watch.noConfusion h
/-- A watch past its window's end that waits for the character, at the bounds of the window; one that is SHUT; and the
FINISHING driver. -/
theorem witness_CharacterIgnored :
    let s := { receiving active 440 with asm := { active.asm with cond := .discarding }, watch := open41 }
    (s.rstLow = false ∧ s.straps.valid = true ∧ s.rx.cond = .receiving ∧ s.rx.confirmed = true ∧
      s.asm.cond = .discarding ∧ s.driver.cond ≠ .finishing) ∧
    (watchWaited s.watch s.rx.startInstant (max s.now (s.rx.startInstant + 169)) ∧
      s.watch.watched = some { entry := 0, dest := 2, seq := 0 }) ∧
    (watchWaited open41 1 448 ∧ watchWaited open41 447 448) ∧
    (¬ watchWaited .shut s.rx.startInstant (max s.now (s.rx.startInstant + 169)) ∧
      ({ comparedDriver none with cond := .finishing } : Driver).cond = .finishing) := by
  refine ⟨by decide, ⟨⟨_, _, rfl, ⟨by decide, by decide⟩, by decide⟩, rfl⟩,
    ⟨⟨_, _, rfl, ⟨by decide, by decide⟩, by decide⟩, ⟨_, _, rfl, ⟨by decide, by decide⟩, by decide⟩⟩, ?_, rfl⟩
  rintro ⟨x, e, h, -⟩; exact Watch.noConfusion h
/-- Char 2 of a DATA fixes the expected count; a payload byte leaves it. -/
theorem witness_CharacterTakenIntoFrame :
    let s := { received active 1352 0x81 false .recessive with asm := assembling 2 }
    let p := { received active 1528 0xA5 false .recessive with asm := assembling 3 }
    (takesCharacter s ∧ takesCharacter p) ∧
    (s.asm.cond = .inFrame ∧ takenFaulty s.rx = false ∧ takenEdge s.rx = false ∧
      s.asm.charOk (takenData s.rx) = true ∧ s.asm.count = 2 ∧ s.asm.kind ≠ .answer ∧
      some (lengthField (takenData s.rx) + 5) ≠ some (s.asm.count + 1)) ∧
    (p.asm.cond = .inFrame ∧ takenFaulty p.rx = false ∧ takenEdge p.rx = false ∧
      p.asm.charOk (takenData p.rx) = true ∧ p.asm.count = 3 ∧ p.asm.expected = some 6) :=
  ⟨⟨takes_of (by decide +kernel), takes_of (by decide +kernel)⟩, by decide +kernel⟩
theorem witness_HeaderChecksFollowTheTable : checkChar0 2 0x22 = true ∧ checkChar0 2 0x23 = false ∧
    checkChar0 30 0x7F = false ∧ checkChar2 .data 0xF8 = true ∧ checkChar2 .data 0x79 = false ∧
    checkChar2 .cast 0x00 = false ∧ checkChar2 .answer 0x04 = false := by decide

/-- A character that its assembler takes for a good frame's last ends that frame. -/
theorem ends_good (s : State) (h1 : s.rstLow = false ∧ s.straps.valid = true ∧ s.rx.cond = .receiving ∧
      s.rx.confirmed = true ∧ s.driver.cond ≠ .finishing) (f : Frame) (h2 : takenFaulty s.rx = false ∧
      (s.asm.deliver s.straps.own s.straps.highest (max s.now (s.rx.startInstant + 169)) s.rx.char).2 = .good f) :
    endsGoodFrame s f := ⟨takes_of h1, h2⟩
/-- A watch that is SHUT, NOTED or OPEN holds no frame. -/
theorem holds_none {w : Watch} {f : Frame} (h : ∀ x e y, w ≠ .holding x e y) : ¬ holdsFrame w f := by
  rintro ⟨x, e, y, g, -⟩; exact h x e y g
/-- The watch of the entry of section 10.1, noted. -/
def noted41 : Watch := .noted { entry := 0, dest := 2, seq := 0 }
/-- A CAST from another station with room, and with 24 records held; a same-number one. -/
theorem witness_GoodCastEnd :
    let f := frameOf castBytes 0 2
    let r : ReceiveRecord := { ref := 0, source := 1, cls := .cast, castsLost := 0, length := 1, blocks := [0] }
    endsGoodFrame (atLast up castBytes) f ∧ ¬ holdsFrame (atLast up castBytes).watch f ∧ ¬ holdsFrame noted41 f ∧
    (f.kind = .cast ∧ f.own = false ∧ f.sameNumber = false ∧ (frameOf castBytes 1 2).sameNumber = true ∧
      (atLast up castBytes).rot.station = .listen) ∧
    roomFor (atLast up castBytes) f ∧
    ¬ roomFor { atLast up castBytes with rxq := { records := List.replicate 24 r, tally := 255 } } f :=
  ⟨ends_good _ (by decide +kernel) _ (by decide +kernel), holds_none (by intro x e y h; exact Watch.noConfusion h),
    holds_none (by intro x e y h; exact Watch.noConfusion h), by decide +kernel,
    by unfold roomFor; decide +kernel, by unfold roomFor; decide +kernel⟩
/-- A DATA from this station itself with the watch NOTED, and one to a station in WITHDRAWN. -/
theorem witness_GoodDataEndAnchorsAlone :
    let f := frameOf dataBytes 0 2
    let s := atLast { up with rot := { up.rot with station := .withdrawn } } dataBytes
    let own := { atLast active (dataBytes.set 0 0x21) with
      asm := { (atLast active dataBytes).asm with ownSoFar := true }
      rx := { (atLast active dataBytes).rx with driven := true }, watch := noted41 }
    endsGoodFrame s f ∧ f.kind = .data ∧ ¬ holdsFrame s.watch f ∧ s.rot.station = .withdrawn ∧
    endsGoodFrame own { f with own := true } ∧ ¬ holdsFrame own.watch f :=
  ⟨ends_good _ (by decide +kernel) _ (by decide +kernel), by decide +kernel,
    holds_none (by intro x e y h; exact Watch.noConfusion h), by decide,
    ends_good _ (by decide +kernel) _ (by decide +kernel), holds_none (by intro x e y h; exact Watch.noConfusion h)⟩
/-- The four classifications, a pending answer superseded with leaving-pending set, and none. -/
theorem witness_AddresseeDecides :
    let f := frameOf dataBytes 0 2
    let p (x : Seq) (fresh : Bool) : PeerEntry := { PeerEntry.init with rxExpect := some x, rxLastFresh := fresh }
    let s := { atLast active dataBytes with
      pend := some dueAnswer, rot := { active.rot with leaving := true, answer := true } }
    endsGoodFrame (atLast up dataBytes) f ∧ endsGoodFrame s f ∧ ¬ holdsFrame s.watch f ∧
    (f.kind = .data ∧ f.own = false ∧ f.sameNumber = false ∧ f.dest = (atLast up dataBytes).straps.own ∧
      (atLast up dataBytes).rot.station = .listen ∧ (atLast up dataBytes).pend = none) ∧
    (s.pend ≠ none ∧ s.rot.leaving = true ∧ s.rot.ownFrame = false ∧ s.rot.answerWatch = false ∧
      s.rot.station = .active) ∧
    classify (up.peer 1) f.seq f.fresh = .newLink ∧ classify (p 1 true) f.seq f.fresh = .duplicate ∧
    classify (p 0 false) 0 false = .next ∧ classify (p 2 false) 0 false = .stray :=
  ⟨ends_good _ (by decide +kernel) _ (by decide +kernel), ends_good _ (by decide +kernel) _ (by decide +kernel),
    holds_none (by intro x e y h; exact Watch.noConfusion h), by decide +kernel⟩
/-- The superseded answer's end withdraws the station, and the new answer stands DUE (R89, R61; assumption log 13). -/
theorem test_supersede :
    let s := { atLast active dataBytes with
      pend := some dueAnswer, rot := { active.rot with leaving := true, answer := true } }
    let t := nextOf (exec (.characterDelivered true true) s)
    t.rot.station = .withdrawn ∧ t.rot.cause = .request ∧ t.rot.answer = true ∧ t.pend.map (·.code) = some .taken := by
  decide +kernel
/-- The ANSWER of section 10.1 at a station that follows the window it belongs to, and at one that follows none. -/
theorem witness_GoodAnswerEnd :
    let f := frameOf answerBytes 0 2
    let s := atLast { active with rot := { active.rot with
      position := .frame, marker := true, tracked := some 936, baseTime := 1384 } } answerBytes
    endsGoodFrame s f ∧ ¬ holdsFrame s.watch f ∧ endsGoodFrame (atLast up answerBytes) f ∧
    f.kind = .answer ∧ s.rot.station = .active ∧ s.rot.marker = true ∧ 936 < f.start ∧ f.start < 936 + 448 ∧
    active.rot.tracked = none ∧ f.own = false :=
  ⟨ends_good _ (by decide +kernel) _ (by decide +kernel), holds_none (by intro x e y h; exact Watch.noConfusion h),
    ends_good _ (by decide +kernel) _ (by decide +kernel), by decide +kernel⟩
theorem witness_TruncationAndSettle :
    let s := { active with asm := { active.asm with cond := .inFrame, dueInstant := 176, startInstant := 4 } }
    let w : Watched := { entry := 0, dest := 2, seq := 0 }
    let h : HeldFrame := { start := 4, kind := .answer, inTime := false }
    (s.rstLow = false ∧ s.straps.valid = true ∧ s.asm.cond = .inFrame ∧ s.rx.cond ≠ .receiving ∧ s.watch = .shut ∧
      h.start = s.asm.startInstant) ∧
    (nextOf (exec .frameTruncation { s with watch := .holding w 0 h })).watch = .shut ∧
    Assembler.init.cond = .discarding ∧
    (nextOf (exec .discardSettle { up with asm := Assembler.init, quiet := quietFor 64 })).now =
      0 ∧
    -- 4 T from the present instant, and from a dominant sample of this instant (R10)
    samplesToQuiet up 64 = 64 ∧ samplesToQuiet (nextOf (exec (.dominantSample 0) up)) 64 = 65 ∧
    samplesToQuiet { up with quiet := quietFor 64 } 64 = 0 := by decide
/-- The station driving char 0 of a DATA, or its last character. -/
def driving : State := nextOf (exec .slotStart (queued [entry41]))
def dataDone : State := { driving with em := { driving.em with index := 14 } }
def answering : State := nextOf (exec .answerWindowStart { active with pend := some dueAnswer })
def answerDone : State := { answering with em := { answering.em with index := 4 } }
/-- The same with char `k - 1` compared and char `k` presented, the driver still at the stop cell compared. -/
def between (s : State) (k : Nat) : State :=
  nextOf (exec (.characterSent (steady .recessive)) { s with em := { s.em with index := k - 1 } })
/-- A character to report from its own cells, and from the stop cell compared before it; the line at the bounds of the cells
of 8Ah sent with edge bit 0, a character driven or the next one presented; one that ends with none presented; and an IDLE
driver (R5, R11). -/
theorem witness_CharacterSentPresentsTheNext :
    (driving.driver.cond = .driving ∧ atCompare driving = driving ∧ driving.driver.sent = false ∧
      driving.em.cond = .emitting ∧ majority (steady .recessive) = .recessive ∧ driving.em.index + 1 < driving.em.count ∧
      driving.driver.next = none ∧ (driving.runTo 160).driver.next = some { data := 0x02, edge := false }) ∧
    (∀ k ∈ [1, 2, 11, 12, 13], ({ driving with em := { driving.em with index := k } } : State).em.index + 1 <
      driving.em.count) ∧
    (∀ k ∈ [1, 13], (between driving k).driver.sent = true ∧ (atCompare (between driving k)).driver.cond = .driving ∧
      (atCompare (between driving k)).driver.sent = false ∧ (between driving k).em.cond = .emitting ∧
      (between driving k).em.index + 1 < (between driving k).em.count) ∧
    let c : LineChar := { data := 0x8A, edge := false }
    let cells := [Level.dominant, .dominant, .recessive, .dominant, .recessive, .dominant, .dominant, .dominant, .recessive,
      .dominant, .recessive]
    let d : State := { up with driver := { comparedDriver none with char := c, sent := false } }
    let p : State := { up with driver := comparedDriver (some c) }
    (List.range 11).map (charLevel c) = cells ∧ up.driver.cond = .idle ∧ up.now ≤ 0 ∧
    (∀ n ∈ List.range 11, ∀ k ∈ [16 * n, 16 * n + 15],
      (d.runTo k).ltxLow = (cells.getD n .recessive == .dominant) ∧
      (p.runTo (176 + k)).ltxLow = (cells.getD n .recessive == .dominant)) ∧
    (({ up with driver := comparedDriver none } : State).runTo 176).ltxLow = false := by decide +kernel
/-- The last character of a CAST, a DATA and an ANSWER, from its own cells or from the stop cell before them; an ANSWER that
a new one supersedes. -/
theorem witness_LastCharacterSentEmitsTheFrame :
    (∀ s ∈ [castDone, dataDone, answerDone, between castDone 8, between dataDone 14, between answerDone 4],
      (atCompare s).driver.cond = .driving ∧ (atCompare s).driver.sent = false ∧ s.em.cond = .emitting ∧
      s.em.count ≤ s.em.index + 1) ∧
    (castDone.em.source = .transmit 0 .cast ∧ (findEntry castDone.txq 0).map (·.isCast) = some true) ∧
    (dataDone.em.source = .transmit 0 .data ∧ dataDone.watch = .noted { entry := 0, dest := 2, seq := 0 }) ∧
    (answerDone.em.source = .answer ∧ answerDone.pend = some { dueAnswer with phase := .emitting } ∧
      dueAnswer.phase = .due ∧ (between answerDone 4).driver.sent = true) ∧
    (nextOf (exec (.characterSent (steady .recessive)) { answerDone with pend := some dueAnswer })).pend =
      some dueAnswer := by decide +kernel
/-- A loss in cell 10, where the stop cell is sent recessive, and a line fault in cell 0, of the character driven and of the
one presented; fault counts 6 and 7; a cancel deferred, leaving-pending set, and a superseded ANSWER. -/
theorem witness_MismatchLosesTheFrame :
    let s (n : Nat) := { driving with rot := { driving.rot with faultCount := n } }
    let loss : Instr := .loss 10 (steady .dominant)
    let leaving := { driving with rot := { driving.rot with leaving := true } }
    let cancelled := { driving with txq := driving.txq.map fun e => { e with cancelPending := true } }
    mismatchIn driving loss 10 ∧ mismatchIn driving (.lineFault 0 (steady .recessive)) 0 ∧
    mismatchIn (between driving 14) loss 10 ∧ (between driving 14).driver.sent = true ∧
    (driving.em.source = .transmit 0 .data ∧ (findEntry driving.txq 0).map (·.cancelPending) = some false ∧
      driving.watch = noted41) ∧
    (nextOf (exec loss (s 6))).rot.station = .listen ∧ (nextOf (exec loss (s 7))).rot.cause = .faults ∧
    (nextOf (exec loss leaving)).rot.station = .withdrawn ∧
    (nextOf (exec loss cancelled)).compq.map (·.outcome) = [.cancelled] ∧
    (nextOf (exec (.lineFault 0 (steady .recessive)) answering)).pend = none ∧
    (answering.em.source = .answer ∧ dueAnswer.phase = .due ∧
      (nextOf (exec loss { answering with pend := some dueAnswer })).pend = some dueAnswer) :=
  ⟨⟨rfl, rfl, rfl, _, .inl ⟨rfl, by decide, by decide⟩⟩, ⟨rfl, rfl, rfl, _, .inr ⟨rfl, by decide, by decide⟩⟩,
    ⟨by decide +kernel, by decide +kernel, by decide +kernel, _, .inl ⟨rfl, by decide +kernel, by decide⟩⟩,
    by decide +kernel, by decide +kernel⟩
theorem witness_FinishingEndResult :
    let s := { up with driver := { (comparedDriver none) with cond := .finishing, sent := false } }
    s.driver.cond = .finishing ∧ majority (steady .recessive) ≠ charLevel s.driver.char 1 ∧
    (nextOf (exec (.finishingEnd (some (1, steady .recessive))) s)).now = 25 := by decide
/-- Slot 0 after the anchoring, slot 4 after slot 3, and slot 5 when the starts up to 4 are past (R39, R47). -/
theorem slot0_comes {s : State} (h : s.rot.nextSlot = 0 ∧ s.now = s.rot.baseTime) : slotComes s 0 :=
  ⟨by omega, by omega, by omega⟩
theorem witness_SlotPasses :
    let s := { active with rot := { active.rot with nextSlot := 4 } }
    (active.rot.station = .active ∧ active.rot.position = .slot ∧ slotComes active 0 ∧ offer active.txq = none) ∧
    (slotComes s 4 ∧ 4 ≤ s.straps.highest + 2 ∧ s.straps.highest < 4) ∧
    slotComes { active with now := 384 * 4 + 1 } 5 ∧ active.straps.highest + 2 < 5 := by
  refine ⟨⟨rfl, rfl, slot0_comes ⟨rfl, rfl⟩, rfl⟩, ⟨⟨?_, ?_, ?_⟩, by decide, by decide⟩, ⟨?_, ?_, ?_⟩, by decide⟩ <;>
    simp only [active, up, State.reset, Rotation.rest, Rotation.beginSlots] <;> omega
theorem witness_OwnTurnBeginsAFrame :
    let s := queued [entry41]
    let u := s.runTo (s.rot.baseTime + 384 * 0)
    (s.rot.station = .active ∧ s.rot.position = .slot ∧ s.rot.nextSlot = 0 ∧ s.now = s.rot.baseTime ∧
      0 ≤ s.straps.highest ∧ (s.rot.base + 0) % (s.straps.highest + 1) = s.straps.own ∧ s.rot.leaving = false ∧ 64 ≤ u.quiet.elapsed ∧
      s.asm.cond = .idle ∧ s.rx.cond ≠ .receiving ∧ s.em.cond = .idle) ∧
    offer s.txq = some entry41 ∧ entry41.dest ≠ 31 ∧ offer [entryCast] = some entryCast ∧ entryCast.dest = 31 ∧
    entry41.state ≠ .inFlight ∧ flying41.state = .inFlight := by
  decide
theorem witness_OwnTurnNotStarted :
    let s := { queued [entry41] with em := { Emitter.init with cond := .finishing } }
    let u := s.runTo (s.rot.baseTime + 384 * 0)
    (s.rot.station = .active ∧ s.rot.position = .slot ∧ s.rot.nextSlot = 0 ∧ s.now = s.rot.baseTime ∧
      s.rot.leaving = false ∧ (s.rot.base + 0) % (s.straps.highest + 1) = s.straps.own ∧ 64 ≤ u.quiet.elapsed ∧ s.asm.cond = .idle ∧
      s.rx.cond ≠ .receiving ∧ s.em.cond ≠ .idle) ∧
    offer s.txq = some entry41 ∧ (s.txq.map (·.ref)).Nodup ∧ entry41.cancelPending = false := by decide
theorem witness_RestsAreReached :
    (active.rot.station = .active ∧ active.rot.position = .slot) ∧
    (up.rstLow = false ∧ up.straps.valid = true ∧ up.rot.station = .listen ∧ up.straps.highest ≤ 30) ∧
    (nextOf (exec .secondRestSlotEnd { active with now := 1920, quiet := quietFor 767 })).rot.position =
      .restDue ∧
    (nextOf (exec .secondRestSlotEnd { active with now := 1920, quiet := quietFor 768 })).rot.position =
      .slot := by decide
theorem witness_RotationWindowEndResult :
    inWindowState.rot.station = .active ∧ inWindowState.rot.position = .window ∧
    inWindowState.rot.tracked = some 0 ∧
    (∀ i ∈ [1, 447], (nextOf (exec .rotationWindowEnd (receiving inWindowState i))).rot.position = .window) ∧
    (∀ i ∈ [0, 448], (nextOf (exec .rotationWindowEnd (receiving inWindowState i))).rot.position = .slot) := by decide
theorem witness_AnswerWindowStartResult :
    let s := { active with pend := some dueAnswer }
    (s.pend = some dueAnswer ∧ dueAnswer.phase = .due ∧ (s.runTo 64).now = 64 ∧ 64 ≤ (s.runTo 64).quiet.elapsed ∧
      s.asm.cond = .idle ∧ s.rx.cond ≠ .receiving ∧ s.em.cond = .idle) ∧
    (nextOf (exec .answerWindowStart { s with now := 65 })).pend = none ∧
    (nextOf (exec .answerWindowStart { s with quiet := { elapsed := 0, lastDominant := 1, since := 2 }, now := 1 })).pend = none ∧
    (nextOf (exec .answerWindowStart { s with
      now := 65, rot := { s.rot with leaving := true, answer := true } })).rot.station = .withdrawn := by decide
theorem witness_WatchWindowEndResult :
    let s := { queued [flying41] with watch := .opened { entry := 0, dest := 2, seq := 0 } 0 }
    s.watch = .opened { entry := 0, dest := 2, seq := 0 } 0 ∧
    (nextOf (exec .watchWindowEnd (receiving s 447))).watch = s.watch ∧
    (nextOf (exec .watchWindowEnd (receiving s 448))).watch = .shut := by decide
/-- The watch of section 10.1 holding a frame that began at 1000. -/
def holding41 (h : HeldFrame) : Watch := .holding { entry := 0, dest := 2, seq := 0 } 936 h
def held (k : FrameKind) : HeldFrame := { start := 1000, kind := k, inTime := true }
/-- An activity in progress with leaving-pending set. -/
def leavingWith (s : State) (own watch answer : Bool) : State :=
  { s with rot := { s.rot with leaving := true, ownFrame := own, answerWatch := watch, answer := answer } }
/-- One state for each report that ends an activity (R59): emitted CAST and ANSWER, answer not started at its window start on
a line that is not idle (R90, R91) and one sample late (assumption log 24, DEDUCED), window end, glitch, truncation,
ignored and damaged character, held frame's end; and the lost reports, at fault counts 6 and 7. -/
theorem witness_LastActivityEndsInWithdrawal :
    let w (s : State) := { leavingWith s false true false with watch := open41 }
    let rec1 : Instr := .characterDelivered true false
    let hold := { leavingWith (atLast active castBytes) false true false with watch := holding41 (held .cast) }
    let addressed := { leavingWith (atLast active dataBytes) false true false with watch := holding41 (held .data) }
    let cut := { w active with asm := { active.asm with cond := .inFrame, startInstant := 4 } }
    let busy := { leavingWith (receiving active 40) false false true with pend := some dueAnswer }
    let ignored := { w (receiving active 440) with asm := Assembler.init }
    let sent : Instr := .characterSent (steady .recessive)
    let loss : Instr := .loss 10 (steady .dominant)
    lastActivityEnds (leavingWith castDone true false false) sent ∧
    lastActivityEnds (leavingWith answerDone false false true) sent ∧
    lastActivityEnds busy .answerWindowStart ∧
    lastActivityEnds { leavingWith active false false true with pend := some dueAnswer, now := 65 } .answerWindowStart ∧
    lastActivityEnds (w active) .watchWindowEnd ∧
    lastActivityEnds (w (glitching active)) (.startGlitch true) ∧ lastActivityEnds cut .frameTruncation ∧
    lastActivityEnds ignored rec1 ∧ lastActivityEnds (w (received active 100 0x42 false .recessive)) rec1 ∧
    lastActivityEnds hold rec1 ∧
    (mismatchIn (leavingWith driving true false false) loss 10 ∧
      mismatchIn (leavingWith answering false false true) loss 10) ∧
    (∀ n ∈ [6, 7], (nextOf (exec loss { leavingWith driving true false false with
      rot := { (leavingWith driving true false false).rot with faultCount := n } })).rot.cause =
        if n = 7 then .faults else .request) ∧
    endsGoodFrame addressed (frameOf dataBytes 0 2) ∧ holdsFrame addressed.watch (frameOf dataBytes 0 2) := by
  refine ⟨.inl ⟨_, rfl, rfl, rfl, rfl, rfl, by decide, rfl, .inl ⟨⟨_, rfl⟩, rfl⟩⟩,
    .inl ⟨_, rfl, rfl, rfl, rfl, rfl, by decide, rfl, .inr ⟨rfl, ⟨_, rfl, rfl⟩, rfl⟩⟩,
    .inr (.inl ⟨rfl, rfl, rfl, dueAnswer, rfl, rfl, .inr (.inr (.inr (.inl rfl)))⟩),
    .inr (.inl ⟨rfl, rfl, rfl, dueAnswer, rfl, rfl, .inl (by decide)⟩),
    .inr (.inr ⟨rfl, rfl, .inl ⟨rfl, _, _, rfl, fun h => RxCond.noConfusion h.1⟩⟩),
    .inr (.inr ⟨rfl, rfl, .inr (.inl ⟨⟨_, rfl⟩, rfl, rfl, rfl, by decide, by decide, _, _, rfl, by unfold inWindowOf; decide,
      by decide⟩)⟩),
    .inr (.inr ⟨rfl, rfl, .inr (.inr (.inl ⟨rfl, rfl, rfl, rfl, by decide, .inl ⟨_, _, rfl, by decide, by decide⟩⟩))⟩),
    .inr (.inr ⟨rfl, rfl, .inr (.inr (.inr ⟨⟨true, false⟩, rfl, takes_of (by decide), .inl ⟨rfl, _, _, rfl,
      by unfold inWindowOf; decide, by decide⟩⟩))⟩),
    .inr (.inr ⟨rfl, rfl, .inr (.inr (.inr ⟨⟨true, false⟩, rfl, takes_of (by decide +kernel), .inr (.inl ⟨100, _,
      .inl ⟨rfl, .inr (by decide +kernel), rfl, rfl⟩, .inl ⟨_, _, rfl, by decide, by decide⟩⟩)⟩))⟩),
    .inr (.inr ⟨rfl, rfl, .inr (.inr (.inr ⟨⟨true, false⟩, rfl, takes_of (by decide +kernel), .inr (.inr ⟨frameOf castBytes 0 2,
      ends_good _ (by decide +kernel) _ (by decide +kernel), ⟨_, _, _, rfl, by decide +kernel⟩, rfl, .inl rfl⟩)⟩))⟩),
    ⟨⟨rfl, rfl, rfl, _, .inl ⟨rfl, by decide, by decide⟩⟩, ⟨rfl, rfl, rfl, _, .inl ⟨rfl, by decide, by decide⟩⟩⟩,
    by decide +kernel, ends_good _ (by decide +kernel) _ (by decide +kernel), ⟨_, _, _, rfl, by decide +kernel⟩⟩
/-- An ANSWER, a CAST and a DATA that is the held frame, with leaving-pending clear and set; the DATA answered with
leaving-pending set in the orders that offer it before the close withdraws the station, and not in the others; damage that
the watch takes from a character and from a truncation. -/
theorem witness_HeldFrameClosesTheWatch :
    let w : Watched := { entry := 0, dest := 2, seq := 0 }
    let f := frameOf answerBytes 0 2
    let s (bytes : List Byte) (k : FrameKind) := { atLast (queued [flying41]) bytes with watch := holding41 (held k) }
    let cut := { queued [flying41] with
      asm := { active.asm with cond := .inFrame, startInstant := 1000 }, watch := holding41 (held .data) }
    let bad := { received (queued [flying41]) 1528 0xA5 true .recessive with
      asm := assembling 3, watch := holding41 (held .data) }
    let going := leavingWith (s dataBytes .data) false true false
    endsGoodFrame (s answerBytes .answer) f ∧ endsGoodFrame (s castBytes .cast) (frameOf castBytes 0 2) ∧
    endsGoodFrame (s dataBytes .data) (frameOf dataBytes 0 2) ∧ endsGoodFrame going (frameOf dataBytes 0 2) ∧
    (f.kind = .answer ∧ f.own = false ∧ f.sameNumber = false ∧ f.sender = w.dest ∧ f.dest = 0 ∧ f.seq = w.seq ∧
      (held .answer).start = f.start ∧ (held .cast).start = (frameOf castBytes 0 2).start ∧
      (held .data).start = (frameOf dataBytes 0 2).start ∧ (s dataBytes .data).rot.leaving = false ∧
      going.rot.leaving = true ∧ going.watch = holding41 (held .data)) ∧
    heldResult 0 w { held .answer with inTime := false } f = .noAnswer ∧
    (takesCharacter bad ∧ damageAt bad 1000 (discarded (assembling 3)) ∧ watchTakes bad.watch 1000) ∧
    (cut.rstLow = false ∧ cut.straps.valid = true ∧ cut.asm.cond = .inFrame ∧ cut.rx.cond ≠ .receiving ∧
      watchTakes cut.watch cut.asm.startInstant ∧ cut.watch.watched = some w) ∧
    ∀ r o : Bool, let t := nextOf (exec (.characterDelivered r o) going)
      (t.watch = .shut ∧ t.txq.map (·.state) = [.outstanding]) ∧
      (t.rot.station, t.rxq.records.length, t.pend.isSome) =
        if o = true then (.active, 1, true) else (.withdrawn, 0, false) :=
  ⟨ends_good _ (by decide +kernel) _ (by decide +kernel), ends_good _ (by decide +kernel) _ (by decide +kernel),
    ends_good _ (by decide +kernel) _ (by decide +kernel), ends_good _ (by decide +kernel) _ (by decide +kernel),
    by decide +kernel, by decide +kernel,
    ⟨takes_of (by decide +kernel), .inr (.inr (.inl (by decide +kernel))), .inr ⟨_, _, _, rfl, rfl⟩⟩,
    ⟨rfl, rfl, rfl, by decide, .inr ⟨_, _, _, rfl, rfl⟩, rfl⟩, by decide +kernel⟩
/-- The last BUSY but one and the last (R100), the last attempt but one and the last (R101, R102). -/
theorem witness_WatchResultsWithoutACancel :
    let e (a b : Nat) := { flying41 with attempts := a, busyAnswers := b }
    let q (a b : Nat) (r : WatchResult) := ((queued [e a b]).applyWatchResult 0 r).txq.map (·.state)
    (findEntry (queued [flying41]).txq 0 = some flying41 ∧ flying41.state = .inFlight ∧ flying41.isCast = false ∧
      flying41.cancelPending = false) ∧
    q 1 14 (.code .busy) = [.outstanding] ∧ q 1 15 (.code .busy) = [] ∧
    q 3 0 (.code .outOfStep) = [.outstanding] ∧ q 4 0 (.code .outOfStep) = [] ∧
    q 3 0 .noAnswer = [.outstanding] ∧ q 4 0 .noAnswer = [] := by decide
theorem witness_DeferredCancelsAreResolved :
    let e := { flying41 with cancelPending := true }
    let n := { e with attemptedEver := false }
    findEntry (queued [e]).txq 0 = some e ∧ e.state = .inFlight ∧ e.isCast = false ∧ e.cancelPending = true ∧
    findEntry (queued [n]).txq 0 = some n ∧ n.attemptedEver = false ∧ n.ref = 0 ∧ FrameKind.data ≠ .answer := by decide
/-- The opening of an IDLE port, and those that RSTn low and BARRED turn away. -/
theorem witness_OpeningReadingsAndAttention : up.rstLow = false ∧ up.port.state = .idle ∧
    (State.reset.rstLow = true ∧ ({ up with port := { up.port with state := .barred } } : State).port.state = .barred) ∧
    exec (hostRow .nop 0 (.byte 0)) up = .next (nextOf (exec (.nop 0 (.byte 0)) up)) ∧
    HostPhase.byte 0 ≠ HostPhase.close ∧ (after up [.transactionOpen 0]).port.opening.isSome = true :=
  ⟨rfl, rfl, ⟨rfl, rfl⟩, rfl, by decide, by decide⟩
/-- Between bytes, and after seven bits of byte 0. -/
theorem witness_CommandDecodeResult :
    let s := after up [.transactionOpen 0]
    let seven := { s with port := { s.port with bitsIn := (bitsOf 0x41).take 7 } }
    (s.port.state = .opened ∧ s.port.command = none ∧ s.port.opening = some up.readOpening ∧ betweenBytes s ∧
      s.port.bitsIn.length < 7) ∧
    seven.port.sckHigh = false ∧ seven.port.bitsIn ++ [true] = bitsOf 0x41 := by
  unfold betweenBytes; decide
theorem witness_VoidAndBarredClosesSetNoResult :
    let s := after up [.transactionOpen 0]
    s.port.state = .opened ∧ s.port.command = none ∧
    ({ up with port := { up.port with state := .barred } } : State).port.state = .barred := by decide
/-- Between bytes, after seven bits of a byte, with SCK high, and outside a transaction. -/
theorem witness_HostBytesAreExchanged :
    let s := inCommand up .status [] [0x00]
    let seven := { s with port := { s.port with bitsIn := (bitsOf 0x41).take 7 } }
    let high := { s with port := { s.port with bitsIn := [true], sckHigh := true } }
    (s.port.state = .opened ∧ s.port.command = some .status ∧ s.port.opening = some up.readOpening ∧ betweenBytes s ∧
      HostCommand.status ≠ .post ∧ HostCommand.status ≠ .peer ∧ HostCommand.status ≠ .cancel) ∧
    (seven.port.sckHigh = false ∧ seven.port.bitsIn ++ [true] = bitsOf 0x41 ∧ seven.port.bitsIn.length < 8) ∧
    (high.port.sckHigh = true ∧ ¬ betweenBytes high) ∧
    (nextOf (exec (.status 0 (.rise true)) seven)).misoBit = seven.misoBit ∧
    exec (.status 0 (.byte 0x41)) s = .next (nextOf (exec (.status 0 (.byte 0x41)) s)) ∧
    ¬ (up.port.state = .opened ∧ up.port.command = some .status) := by
  refine ⟨by unfold betweenBytes; decide, by decide, by unfold betweenBytes; decide, by decide +kernel, rfl, by decide⟩
/-- Parameters of POST and PEER, a byte after PEER's, and bytes 4 and L + 4 of a POST, staged and not. -/
theorem witness_ParameterBytesAreTaken :
    let s := inCommand up .post [2, 0x41] [0, 0, 0]
    let p (ps : List Byte) := inCommand up .peer ps [0]
    let body (k : Nat) := inCommand up .post [2, 0x41, 1] (List.replicate k 0)
    (s.port.state = .opened ∧ s.port.command = some .post ∧ s.port.opening = some up.readOpening ∧ betweenBytes s ∧
      s.port.params.length < 3) ∧
    ((p []).port.command = some .peer ∧ (p []).port.params.length < 1 ∧ 1 ≤ (p [2]).port.params.length) ∧
    (nextOf (exec (.peer 0 (.byte 2)) (p []))).port.peerSnapshot.isSome = true ∧
    (nextOf (exec (.peer 0 (.byte 3)) (p []))).port.peerSnapshot = none ∧
    (nextOf (exec (.peer 0 (.byte 0)) (p []))).port.peerSnapshot = none ∧
    ((body 4).port.params = [2, 0x41, 1] ∧ betweenBytes (body 4) ∧ (body 4).rot.station ≠ .strapFault) ∧
    (nextOf (exec (.post 0 (.byte 9)) (body 4))).port.staging = [9] ∧
    (nextOf (exec (.post 0 (.byte 9)) (body 5))).port.staging = [] := by unfold betweenBytes; decide
/-- Bytes 4 and L + 3 of a POST of 120 bytes are staged; byte L + 4 is not, nor a byte of a POST of 0 or 121 bytes. -/
theorem witness_PayloadBytesAreStaged :
    let s (l : Byte) (k : Nat) := inCommand up .post [2, 0x41, l] (List.replicate k 0)
    let staged (l : Byte) (k : Nat) := (nextOf (exec (.postPayloadByte 0 0x5A) (s l k))).port.staging
    ((s 120 4).port.state = .opened ∧ (s 120 4).port.command = some .post ∧ (s 120 4).rot.station ≠ .strapFault ∧
      (s 120 4).port.params = [2, 0x41, 120] ∧ (s 120 4).port.bitsIn = [] ∧ (s 120 4).port.sckHigh = false) ∧
    staged 120 4 = [0x5A] ∧ staged 120 123 = [0x5A] ∧ staged 120 124 = [] ∧ staged 0 4 = [] ∧ staged 121 4 = [] := by
  decide +kernel
theorem witness_PeerShowsTheEntry :
    let s := { queued [entry41] with peers := up.peers.set 2 { PeerEntry.init with outstanding := some 0 } }
    (s.peers[2]? = some { PeerEntry.init with outstanding := some 0 } ∧ s.txq[0]? = some entry41 ∧ entry41.ref = 0) ∧
    up.peers[0]? = some PeerEntry.init ∧ PeerEntry.init.outstanding = none ∧
    (inCommand up .peer [] []).port.command = some .peer := by decide
/-- The bounds of R104: length 0, 1, 120 and 121; 15 and 16 places taken; 8 and 9 free blocks for one block. -/
theorem witness_PostIsJudgedAtItsClose :
    let done (s : State) (d l : Byte) := (nextOf (exec (.post 0 .close)
      (inCommand s .post [d, 0x41, l] (List.replicate 124 0)))).port.lastResult
    let c : CompletionRecord := { tag := 0, dest := 1, outcome := .sent, attempts := 0, busyAnswers := 0 }
    let full (n : Nat) := { up with compq := List.replicate n c }
    let free (n : Nat) := { up with pool := { up.pool with
      holders := List.replicate (64 - n) (.receive 0) ++ List.replicate n .free } }
    done up 2 0 = .invalid ∧ done up 2 1 = .ok ∧ done up 31 120 = .ok ∧ done up 2 121 = .invalid ∧ done up 0 1 = .invalid ∧
    done up 3 1 = .invalid ∧ done (full 15) 2 1 = .ok ∧ done (full 16) 2 1 = .full ∧ done (free 9) 2 1 = .ok ∧
    done (free 8) 2 1 = .noRoom ∧
    (nextOf (exec (.post 0 .close) (inCommand up .post [2, 0x41, 1] (List.replicate 4 0)))).port.lastResult = .incomplete ∧
    done { up with rot := { up.rot with station := .strapFault } } 2 1 = .wrongState := by decide +kernel
/-- A record of one byte is read whole with seven bytes clocked out (R149). -/
theorem witness_TakeRemovesAWholeRead :
    let h : ReceiveRecord := { ref := 0, source := 1, cls := .cast, castsLost := 0, length := 1, blocks := [0] }
    let s (k : Nat) := inCommand { up with rxq := { records := [h], tally := 0 } } .take [] (List.replicate k 0)
    ((s 7).port.state = .opened ∧ (s 7).port.command = some .take ∧ (s 7).rot.station ≠ .strapFault ∧
      (s 7).rxq.records = [h]) ∧ ((s 7).port.opening.bind (·.receiveHead)) = some h ∧
    (nextOf (exec (.take 0 .close) (s 7))).port.lastResult = .ok ∧
    (nextOf (exec (.take 0 .close) (s 6))).port.lastResult = .incomplete ∧
    (inCommand up .take [] []).port.opening.bind (·.receiveHead) = none := by decide
theorem witness_ReapRemovesAWholeRead :
    let h : CompletionRecord := { tag := 0x41, dest := 2, outcome := .sent, attempts := 0, busyAnswers := 0 }
    let s (k : Nat) := inCommand { up with compq := [h] } .reap [] (List.replicate k 0)
    ((s 7).port.state = .opened ∧ (s 7).port.command = some .reap ∧ (s 7).rot.station ≠ .strapFault ∧
      (s 7).compq = [h]) ∧ ((s 7).port.opening.bind (·.completionHead)) = some h ∧
    (nextOf (exec (.reap 0 .close) (s 7))).port.lastResult = .ok ∧
    (nextOf (exec (.reap 0 .close) (s 6))).port.lastResult = .incomplete := by decide
theorem witness_StatusClearsTheChangeFlag :
    let s (k : Nat) (b : Bool) := inCommand { up with rot := { up.rot with changeFlag := true, setSinceSnapshot := b } }
      .status [] (List.replicate k 0)
    ((s 18 false).port.state = .opened ∧ (s 18 false).port.command = some .status) ∧
    (nextOf (exec (.status 0 .close) (s 18 false))).rot.changeFlag = false ∧
    (nextOf (exec (.status 0 .close) (s 18 true))).rot.changeFlag = true ∧
    (nextOf (exec (.status 0 .close) (s 17 false))).port.lastResult = .incomplete := by decide
theorem witness_CancelActsOnTheOldestWithItsTag :
    let s (e : TxEntry) := inCommand (queued [e]) .cancel [0x41] []
    ∀ e ∈ [entry41, flying41, { flying41 with state := .outstanding }, entryCast],
      (s e).port.state = .opened ∧ (s e).port.command = some .cancel ∧ (s e).rot.station ≠ .strapFault ∧
      (s e).port.params = 0x41 :: [] ∧ (findTag (s e).txq 0x41 = some e ∧ findEntry (s e).txq e.ref = some e ∨
        findTag (s e).txq 0x41 = none) := by decide
theorem witness_FlushCancelsEveryEntry :
    let s := inCommand (queued [flying41, { entryCast with ref := 1 }, { entry41 with ref := 2 }]) .flush [] []
    s.port.state = .opened ∧ s.port.command = some .flush ∧ s.rot.station ≠ .strapFault ∧
    (s.txq.map (·.ref)).Nodup := by decide
theorem witness_LeaveAndRejoin :
    let s (r : Rotation) (c : HostCommand) := inCommand { active with rot := r } c [] []
    (s active.rot .leave).port.command = some .leave ∧ active.rot.station = .active ∧
    (active.rot.ownFrame = false ∧ active.rot.answerWatch = false ∧ active.rot.answer = false) ∧
    (nextOf (exec (.leave 0 .close) (s { active.rot with answer := true } .leave))).rot.leaving = true ∧
    (nextOf (exec (.leave 0 .close) (s { active.rot with station := .withdrawn } .leave))).port.lastResult =
      .wrongState ∧
    (nextOf (exec (.rejoin 0 .close) (s { active.rot with station := .withdrawn } .rejoin))).rot.station = .listen := by
  decide
theorem witness_RestartResetsAllButTheStraps :
    let s := inCommand driving .restart [] []
    (s.port.state = .opened ∧ s.port.command = some .restart ∧ s.rot.station ≠ .strapFault) ∧
    s.driver.cond = .driving ∧ s.em.cond ≠ .idle ∧ up.driver.cond = .idle ∧
    (nextOf (exec (.restart 0 .close) s)).driver.cond = .finishing ∧
    (nextOf (exec (.restart 0 .close) { s with
      driver := { s.driver with cond := .finishing } })).driver.cond = .finishing := by decide
theorem witness_ClosesWithoutEffect :
    let s (c : HostCommand) := inCommand { up with rot := { up.rot with station := .strapFault } } c [] []
    ((s .nop).port.state = .opened ∧ (s .nop).port.command = some .nop ∧ (s .unknown).port.command = some .unknown) ∧
    ∀ c ∈ [HostCommand.post, .take, .reap, .cancel, .flush, .leave, .rejoin, .restart],
      (s c).rot.station = .strapFault ∧ (s c).port.state = .opened ∧ (s c).port.command = some c ∧
      c ≠ .nop ∧ c ≠ .status ∧ c ≠ .peer ∧ c ≠ .unknown := by decide

/-- A working state with a command at the front of its queue: it meets the laws, and its step has a next state. -/
def working : State :=
  { queued [entry41] with now := 768, rot := up.rot.rest 768, pending := [.slotStart] }
theorem witness_EveryStepKeepsTheQuietLaw : working.quietLaw ∧ step working = .next (nextOf (step working)) :=
  ⟨by unfold State.quietLaw; decide, rfl⟩
theorem witness_EveryStepKeepsTheRotationLaw : working.rotationLaw ∧ step working = .next (nextOf (step working)) :=
  ⟨by unfold State.rotationLaw; decide, rfl⟩
theorem witness_EveryStepKeepsTheLimits :
    working.queueLimits ∧ working.countersLaw ∧ step working = .next (nextOf (step working)) :=
  ⟨by unfold State.queueLimits; decide, by unfold State.countersLaw; decide, rfl⟩
theorem witness_EveryStepKeepsTheBlocksAccounted :
    working.poolLaw ∧ working.blocksAccounted = 64 ∧ step working = .next (nextOf (step working)) := by
  refine ⟨⟨by decide, by decide, by decide, by decide, by decide, ?_, ?_⟩, by decide, rfl⟩
  · intro ref h
    have : ref = 0 := by simpa [working, queued] using h
    exact ⟨entry41, by simp [working, queued], this.symm⟩
  · intro ref h
    simp [working, queued] at h
/-- The state after the own turn too: its head IN_FLIGHT, named by its peer's reference. -/
theorem witness_EveryStepKeepsTheHeadLaw : working.headLaw ∧ working.peerLaw ∧
    step working = .next (nextOf (step working)) ∧
    (nextOf (step working)).peers.map (·.outstanding) = (List.replicate 31 none).set 2 (some 0) := by
  refine ⟨⟨by decide, by decide, by decide, ?_⟩, ⟨by decide, ?_, by decide, by decide⟩, rfl, by decide +kernel⟩
  · intro w h
    simp [working, queued, active, up, State.reset, Watch.watched] at h
  · intro k p ref hk hp
    have : p ∈ List.replicate 31 PeerEntry.init := List.mem_of_getElem? hk
    rw [List.eq_of_mem_replicate this] at hp
    cases hp
theorem witness_EveryStepKeepsTheCellsCanonical :
    ({ working with pool := { working.pool with cells := [(0, 7), (15, 9)] } } : State).cellsLaw ∧
    step working = .next (nextOf (step working)) :=
  ⟨by unfold State.cellsLaw; decide, rfl⟩
theorem witness_BlockContentsAreKept :
    exec .slotStart (queued [entry41]) = .next driving ∧ Holder.transmit 0 ≠ .free ∧ (0 : Nat) < 16 ∧ 15 < 16 ∧
    (queued [entry41]).pool.holders[0]? = some (.transmit 0) ∧ driving.pool.holders[0]? = some (.transmit 0) ∧
    (∀ r f, Instr.slotStart ≠ .characterDelivered r f) ∧ ∀ dt, Instr.slotStart ≠ .post dt .close := by
  refine ⟨rfl, by decide, by decide, by decide, rfl, rfl, ?_, ?_⟩ <;> intros <;> simp
/-- The station of section 10.1 with its DATA watched and an ANSWER of a code at its last character. -/
def answered (e : TxEntry) (c : AnswerCode) : State :=
  { atLast (queued [e]) (frameBytes (answerHeader 2 0 0 c) []) with watch := holding41 (held .answer) }
/-- An OUT_OF_STEP answer to the third attempt is retried. -/
theorem witness_OutOfStepRetried : outOfStepRetried (.characterDelivered true true) (answered { flying41 with attempts := 3 } .outOfStep)
    (nextOf (exec (.characterDelivered true true) (answered { flying41 with attempts := 3 } .outOfStep))) 2 :=
  ⟨true, true, frameOf (frameBytes (answerHeader 2 0 0 .outOfStep) []) 0 2, { entry := 0, dest := 2, seq := 0 }, 936,
    held .answer, { flying41 with attempts := 3 }, rfl, ends_good _ (by decide +kernel) _ (by decide +kernel), rfl,
    by decide +kernel⟩
/-- The causes of a refresh: an OUT_OF_STEP answer to the third attempt, one to the fourth, and a cancel after an attempt;
and the DELIVERED conclusion. -/
theorem test_refreshes :
    let deliver (e : TxEntry) (c : AnswerCode) := nextOf (exec (.characterDelivered true true) (answered e c))
    let cancel := inCommand (queued [{ flying41 with state := .outstanding }]) .cancel [0x41] []
    let show3 (t : State) := ((t.peer 2).txSeq, (t.peer 2).refreshDue, t.compq.map (·.outcome))
    show3 (deliver { flying41 with attempts := 3 } .outOfStep) = (1, true, []) ∧
    show3 (deliver { flying41 with attempts := 4 } .outOfStep) = (1, true, [.noAnswer]) ∧
    show3 (nextOf (exec (.cancel 0 .close) cancel)) = (1, true, [.cancelledAfterAttempt]) ∧
    show3 (deliver flying41 .taken) = (1, false, [.delivered]) := by decide +kernel
/-- A turn, which is none of the events; the resets; the closes of a POST, a REAP and a TAKE with result OK; and a delivered
character. -/
theorem witness_QueuesMoveOnlyAtTheirEvents :
    let c : CompletionRecord := { tag := 0x41, dest := 2, outcome := .sent, attempts := 0, busyAnswers := 0 }
    let r : ReceiveRecord := { ref := 0, source := 1, cls := .cast, castsLost := 0, length := 1, blocks := [0] }
    let posting := inCommand up .post [2, 0x41, 1] (List.replicate 5 0)
    let reaping := inCommand { up with compq := [c] } .reap [] (List.replicate 7 0)
    let taking := inCommand { up with rxq := { records := [r], tally := 0 } } .take [] (List.replicate 7 0)
    exec .slotStart (queued [entry41]) = .next driving ∧
    (¬ resets .slotStart (queued [entry41]) ∧ ∀ h, ¬ closesOk .slotStart (queued [entry41]) driving h) ∧
    (resets (.pinReset 0) up ∧ resets (.rstnRelease 0 0 1 0 false) State.reset ∧
      resets (.restart 0 .close) (inCommand up .restart [] [])) ∧
    closesOk (.post 0 .close) posting (nextOf (exec (.post 0 .close) posting)) .post ∧
    closesOk (.reap 0 .close) reaping (nextOf (exec (.reap 0 .close) reaping)) .reap ∧
    closesOk (.take 0 .close) taking (nextOf (exec (.take 0 .close) taking)) .take ∧
    exec (.characterDelivered true true) up = .next up ∧ ¬ resets (.characterDelivered true true) up ∧
    (∀ dt, Instr.slotStart ≠ .flush dt .close) ∧ up.peers[30]? = some PeerEntry.init := by
  refine ⟨rfl, ⟨by simp [resets], ?_⟩, ⟨.inl ⟨0, rfl⟩, .inr (.inl ⟨0, 0, 1, 0, false, rfl, rfl⟩),
    .inr (.inr ⟨0, rfl, rfl, rfl, by decide⟩)⟩, ⟨⟨0, rfl⟩, rfl, rfl, by decide +kernel⟩,
    ⟨⟨0, rfl⟩, rfl, rfl, by decide +kernel⟩, ⟨⟨0, rfl⟩, rfl, rfl, by decide +kernel⟩, rfl, by simp [resets],
    by intros; simp, rfl⟩
  rintro h ⟨⟨dt, e⟩, -⟩
  cases h <;> simp [hostRow] at e
/-- A start from IDLE at a slot start and at a window start, each once more from a stop cell compared that ends there with
none presented; and a driver that goes on in its character, or with the one presented at the end of a stop cell. -/
theorem witness_TheDriverStartsOnlyInItsTurn :
    let next : LineChar := { data := 0x1F, edge := false }
    let endsAt (i : Nat) : Driver := { comparedDriver none with charStart := i - 176 }
    let due : State := { active with pend := some { dueAnswer with windowStart := 400 } }
    let p : State := { up with driver := comparedDriver (some next) }
    exec .slotStart (queued [entry41]) = .next driving ∧ (queued [entry41]).driver.cond = .idle ∧
    driving.driver.cond = .driving ∧
    exec .answerWindowStart { active with pend := some dueAnswer } = .next answering ∧ active.driver.cond = .idle ∧
    answering.driver.cond = .driving ∧
    (∀ s ∈ [(Instr.slotStart, { queued [{ entry41 with dest := 1 }] with
          rot := { active.rot with base := 2, nextSlot := 1 }, driver := endsAt 384 }),
        (Instr.answerWindowStart, { due with driver := endsAt 400 })],
      s.2.driver.cond = .driving ∧ (nextOf (exec s.1 s.2)).driver.cond = .driving ∧
      (nextOf (exec s.1 s.2)).driver.charStart = (nextOf (exec s.1 s.2)).now) ∧
    (nextOf (exec (.dominantSample 175) p)).driver = p.driver ∧
    (nextOf (exec (.dominantSample 176) p)).driver = { comparedDriver none with
      char := next, charStart := 176, sent := false } := by
  refine ⟨rfl, rfl, by decide, rfl, rfl, by decide, ?_⟩
  decide +kernel
theorem witness_FramesAreAssembledAsSent : up.asm.cond = .idle ∧ (30 : Nat) ≤ 30 ∧
    1 ≤ ([0xA5] : List Byte).length ∧ (List.replicate 120 (0 : Byte)).length ≤ 120 ∧
    frameOf dataBytes 0 2 = frameOf dataBytes 0 30 := by decide +kernel
/-- The CRC register with its top bit at each value beside each incoming bit (R20), and the bits of a byte. -/
theorem witness_EmittersPlaceTheFrameBytes : (dataHeader 0 0 2 true 10).length = 3 ∧
    (answerHeader 0 0 1 .taken).length = 3 ∧
    [crcBit 0x7FFF false, crcBit 0x7FFF true, crcBit 0x8000 false, crcBit 0x8000 true] =
      [0xFFFE, 0xEFDF, 0x1021, 0x0000] ∧
    ∃ n : Nat → Bool, (∀ i, n i = decide ((0x62 : Byte).toNat / 2 ^ i % 2 = 1)) ∧
      [7, 6, 5, 4, 3, 2, 1, 0].map n = [false, true, true, false, false, false, true, false] :=
  ⟨by decide, by decide, by decide, _, fun _ => rfl, by decide⟩
end Sys2Proof.Tests
end

section
/-! What a command can do to the sample clock and the quiet timer, said once: a run of clock moves, in the way that
`Move` says it of the other blocks. A law of the quiet timer is then proved move by move. -/

namespace Sys2Proof.Machine

open Sys2Proof

/-- What the laws of the quiet timer look at: the clock, the level of RSTn, the strap latch and the timer. -/
def State.clockView (s : State) : Nat × Bool × StrapLatch × QuietTimer := (s.now, s.rstLow, s.straps, s.quiet)

/-- The elementary moves of the clock and the quiet timer: none, samples that pass, a sample read dominant, and the
timer started at a reset. -/
inductive ClockMove : State → State → Prop where
  | still {s t : State} (h : t.clockView = s.clockView) : ClockMove s t
  | pass (s : State) (d : Nat) : ClockMove s (s.advance d)
  | dominant {s t : State} (runs : s.lineRuns = true)
      (h : t.clockView = (s.setQuiet (QuietTimer.atDominant s.now)).clockView) : ClockMove s t
  | reset {s t : State} (hnow : t.now = s.now) (hquiet : t.quiet = QuietTimer.start s.now) : ClockMove s t

/-- A run of clock moves. -/
abbrev ClockMoves : State → State → Prop := Relation.ReflTransGen ClockMove

namespace ClockMoves

theorem one {s t : State} (h : ClockMove s t) : ClockMoves s t := Relation.ReflTransGen.single h
theorem still {s t : State} (h : t.clockView = s.clockView) : ClockMoves s t := one (.still h)
theorem pass (s : State) (d : Nat) : ClockMoves s (s.advance d) := one (.pass s d)
theorem run (s : State) (i : Nat) : ClockMoves s (s.runTo i) := pass s (i - s.now)

/-- A property that every clock move keeps is kept by a run of them. -/
theorem keeps {P : State → Prop} (hp : ∀ s t, ClockMove s t → P s → P t) {s t : State} (m : ClockMoves s t)
    (h : P s) : P t := by
  induction m with
  | refl => exact h
  | tail _ m ih => exact hp _ _ m ih

theorem ite {p : Prop} [Decidable p] {s t : State} (h : p → ClockMoves s t) : ClockMoves s (if p then t else s) := by
  split
  · exact h ‹_›
  · exact .refl

end ClockMoves

/-! ## The operations that leave the clock as it is -/

section
variable {s t : State}

theorem State.NoticeTouched.clockView (h : s.NoticeTouched t) : t.clockView = s.clockView := by rw [h]; rfl
theorem State.ReportTouched.clockView (h : s.ReportTouched t) : t.clockView = s.clockView := by rw [h]; rfl
theorem State.TurnTouched.clockView (h : s.TurnTouched t) : t.clockView = s.clockView := by rw [h]; rfl

end

section
variable (s : State)

theorem State.takeCharacter_clockView (o : EndOrder) : (s.takeCharacter o).clockView = s.clockView := by
  unfold State.takeCharacter
  dsimp only
  by_cases h : s.driver.cond = .finishing
  · rw [if_pos h]; rfl
  · rw [if_neg h]
    exact (State.deliver_touched ..).clockView

theorem State.glitchTruncation_clockView : s.glitchTruncation.clockView = s.clockView := by
  unfold State.glitchTruncation
  split
  · exact s.truncate_touched.clockView
  · rfl

theorem State.glitchWindow_clockView (start : Nat) : (s.glitchWindow start).clockView = s.clockView := by
  unfold State.glitchWindow
  split
  · split <;> rfl
  · rfl

theorem State.watchPassed_clockView (start : Nat) : (s.watchPassed start).clockView = s.clockView :=
  (s.watchPassed_mayClose start).touched.clockView

theorem State.glitch_clockView (b : Bool) : (s.glitch b).clockView = s.clockView := by
  unfold State.glitch
  dsimp only
  split
  · rw [State.watchPassed_clockView, State.glitchWindow_clockView, State.glitchTruncation_clockView]; rfl
  · rw [State.glitchWindow_clockView, State.watchPassed_clockView, State.glitchTruncation_clockView]; rfl

theorem State.charSent_clockView : s.charSent.clockView = s.clockView := by
  unfold State.charSent
  dsimp only
  split
  · exact (State.emittedReport_touched ..).clockView
  · rfl

theorem State.slotStart_clockView (i : Nat) : (s.slotStart i).clockView = s.clockView := by
  unfold State.slotStart
  dsimp only
  split
  · exact (State.ownTurn_touched (s.setRot _)).clockView
  · rfl

theorem State.exchange_clockView (c : HostCommand) (b : Byte) : (State.exchange c b s).clockView = s.clockView := by
  unfold State.exchange State.takeParam
  dsimp only
  split
  · rfl
  · split <;> rfl

theorem State.presentPost_clockView : s.presentPost.1.clockView = s.clockView := by
  unfold State.presentPost
  dsimp only
  split <;> rfl

theorem State.presentTake_clockView : s.presentTake.1.clockView = s.clockView := by
  unfold State.presentTake State.removeHeadRecord
  split
  · rfl
  · split
    · dsimp only; split <;> rfl
    · rfl

theorem State.presentReap_clockView : s.presentReap.1.clockView = s.clockView := by
  unfold State.presentReap
  split
  · rfl
  · split <;> rfl

theorem State.cancelTag_clockView (tag : Byte) : (s.cancelTag tag).1.clockView = s.clockView := by
  unfold State.cancelTag
  split
  · rfl
  · rw [State.cancelEntry_frame]; rfl

theorem State.flushAll_clockView : s.flushAll.1.clockView = s.clockView := by
  unfold State.flushAll
  rw [State.cancelAll_frame]; rfl

theorem State.presentLeave_clockView : s.presentLeave.1.clockView = s.clockView := by
  unfold State.presentLeave
  split <;> rfl

theorem State.presentRejoin_clockView : s.presentRejoin.1.clockView = s.clockView := by
  unfold State.presentRejoin
  split <;> rfl

theorem State.sckRise_clockView {m : Bool} {whole : Byte → State → State}
    (h : ∀ b t, (whole b t).clockView = t.clockView) : (s.sckRise m whole).clockView = s.clockView := by
  unfold State.sckRise
  split
  · rfl
  · split
    · rfl
    · exact h _ _

theorem State.sckByte_clockView {b : Byte} {whole : Byte → State → State}
    (h : ∀ b t, (whole b t).clockView = t.clockView) : (s.sckByte b whole).clockView = s.clockView := by
  unfold State.sckByte
  split
  · exact h b s
  · rfl

theorem State.firstByte_clockView (p : FirstByteStep) : (s.firstByte p).clockView = s.clockView := by
  cases p with
  | rise m => exact s.sckRise_clockView fun _ _ => rfl
  | fall => rfl
  | byte b => exact s.sckByte_clockView fun _ _ => rfl

end

/-! ## Every command is a run of clock moves -/

namespace ClockMoves

/-- The steps of a host transaction are clock moves when its close is. -/
theorem hostStep {s : State} {c : HostCommand} {p : HostPhase} {close : State → State}
    (h : ClockMoves s (close s)) : ClockMoves s (s.hostStep c p close) := by
  unfold State.hostStep
  refine ite fun _ => ?_
  cases p with
  | rise m => exact still (s.sckRise_clockView fun b t => t.exchange_clockView c b)
  | fall => exact still rfl
  | byte b => exact still (s.sckByte_clockView fun b t => t.exchange_clockView c b)
  | close => exact h

/-- A close is a run of clock moves when the command's own effect is. -/
theorem closeCommand {s : State} {b : Bool} {act : State → State × Result} (h : ClockMoves s (act s).1) :
    ClockMoves s (s.closeCommand b act) := by
  unfold State.closeCommand
  split
  · exact still rfl
  · split
    · exact h.trans (still rfl)
    · exact still rfl

/-- A RESTART leaves the quiet timer, or starts it at this instant when the driver is IDLE (R16). -/
theorem restart (s : State) : ClockMoves s s.restart := by
  unfold State.restart State.restartLine
  split
  · exact one (.reset rfl rfl)
  · exact still rfl
  · exact still rfl

theorem nextStart (s : State) : ClockMoves s s.toNextStart := by
  unfold State.toNextStart
  exact ite fun _ => run _ _

theorem mismatch (s : State) (k : MismatchKind) (cell : Nat) : ClockMoves s (s.mismatch k cell) :=
  still ((s.mismatch_touched k cell).clockView.trans rfl)

theorem closeWatch (s : State) (w : Watched) (r : WatchResult) : ClockMoves s (s.closeWatch w r) := by
  rw [State.closeWatch_frame]; exact still rfl

/-- A sample read dominant reaches the timer while the line interface runs (R10). -/
theorem startEdge (s : State) : ClockMoves s s.startEdge := by
  unfold State.startEdge
  refine ite fun h => ?_
  split <;> exact one (.dominant h rfl)

end ClockMoves

open ClockMoves in
/-- Every command is a run of clock moves. -/
theorem exec_clockMoves {c : Instr} {s t : State} (e : exec c s = .next t) : ClockMoves s t := by
  cases c <;> simp only [exec] at e <;> injection e with e <;> subst e
  case pinReset dt => exact (pass s dt).trans (one (.reset rfl rfl))
  case rstnRelease dt a b r l => exact (pass s dt).trans (ite fun _ => one (.reset rfl rfl))
  case characterDelivered => exact ite fun _ => (run s _).trans (still (State.takeCharacter_clockView ..))
  case startGlitch => exact ite fun _ => (run s _).trans (still (State.glitch_clockView ..))
  case discardSettle => exact ite fun _ => (pass s _).trans (still rfl)
  case frameTruncation => exact ite fun _ => (run s _).trans (still (State.truncate_touched _).clockView)
  case characterSent => exact ite fun _ => ((nextStart s).trans (run _ _)).trans (still (State.charSent_clockView _))
  case loss => exact ite fun _ => ((nextStart s).trans (run _ _)).trans (mismatch ..)
  case lineFault => exact ite fun _ => ((nextStart s).trans (run _ _)).trans (mismatch ..)
  case finishingEnd m =>
    refine ite fun _ => ?_
    split
    · exact (run s _).trans (one (.reset rfl rfl))
    · exact .refl
  case slotStart => exact ite fun _ => (run s _).trans (still (State.slotStart_clockView ..))
  case secondRestSlotEnd =>
    refine ite fun _ => (run s (s.rot.baseTime + Config.slotTime * (s.straps.highest + 3))).trans ?_
    unfold State.restTest
    split <;> exact still rfl
  case restDueRest => exact ite fun _ => (pass s _).trans (still rfl)
  case quietMeasurementRest => exact ite fun _ => (pass s _).trans (still rfl)
  case rotationWindowEnd =>
    split
    · rename_i e _
      refine ite fun _ => (run s (e + Config.windowClose)).trans ?_
      dsimp only
      split
      · exact .refl
      · exact still rfl
    · exact .refl
  case answerWindowStart =>
    split
    · rename_i p _
      refine ite fun _ => (run s p.windowStart).trans ?_
      unfold State.answerWindow
      split <;> exact still rfl
    · exact .refl
  case watchWindowEnd =>
    split
    · rename_i w e _
      refine (run s (e + Config.windowClose)).trans ?_
      dsimp only
      split
      · exact .refl
      · exact closeWatch ..
    all_goals exact .refl
  case transactionOpen dt => exact (pass s dt).trans (ite fun _ => still rfl)
  case commandDecode dt p => exact (pass s dt).trans (ite fun _ => still (State.firstByte_clockView ..))
  case postPayloadByte dt b =>
    exact (pass s dt).trans (ite fun _ => still (State.sckByte_clockView _ fun b t => t.exchange_clockView _ b))
  case voidTransaction dt => exact (pass s dt).trans (ite fun _ => still rfl)
  case barredCsnRise dt => exact (pass s dt).trans (ite fun _ => still rfl)
  case nop dt p => exact (pass s dt).trans (hostStep (still rfl))
  case unknownCommand dt p => exact (pass s dt).trans (hostStep (still rfl))
  case post dt p => exact (pass s dt).trans (hostStep (closeCommand (still (State.presentPost_clockView _))))
  case take dt p => exact (pass s dt).trans (hostStep (closeCommand (still (State.presentTake_clockView _))))
  case reap dt p => exact (pass s dt).trans (hostStep (closeCommand (still (State.presentReap_clockView _))))
  case status dt p =>
    refine (pass s dt).trans (hostStep ?_)
    unfold State.closeStatus
    split <;> exact still rfl
  case peer dt p => exact (pass s dt).trans (hostStep (still rfl))
  case cancel dt p => exact (pass s dt).trans (hostStep (closeCommand (still (State.cancelTag_clockView ..))))
  case flush dt p => exact (pass s dt).trans (hostStep (closeCommand (still (State.flushAll_clockView _))))
  case leave dt p => exact (pass s dt).trans (hostStep (closeCommand (still (State.presentLeave_clockView _))))
  case rejoin dt p => exact (pass s dt).trans (hostStep (closeCommand (still (State.presentRejoin_clockView _))))
  case restart dt p => exact (pass s dt).trans (hostStep (closeCommand (ClockMoves.restart _)))
  case startEdge dt => exact (pass s dt).trans (ClockMoves.startEdge _)
  case firstRecessiveSample dt => exact (pass s dt).trans (ite fun _ => still rfl)
  case dominantSample dt => exact (pass s dt).trans (ite fun h => one (.dominant h rfl))

/-- A property that every clock move keeps is kept by every step. -/
theorem step_keeps_clock {P : State → Prop} (hp : ∀ s t, ClockMove s t → P s → P t) {s t : State} (h : P s)
    (e : step s = .next t) : P t := by
  unfold step at e
  split at e
  · injection e with e; subst e; exact h
  · exact (exec_clockMoves e).keeps hp (hp s _ (.still rfl) h)

/-! ## The law of the quiet timer -/

theorem State.lineRuns_of_clockView {s t : State} (h : t.clockView = s.clockView) : t.lineRuns = s.lineRuns := by
  simp only [State.clockView, Prod.mk.injEq] at h
  obtain ⟨-, hrst, hstraps, -⟩ := h
  simp only [State.lineRuns, hrst, hstraps]

/-- The law of the quiet timer depends on the clock view alone. -/
theorem State.quietLaw_of_clockView {s t : State} (h : t.clockView = s.clockView) (q : s.quietLaw) : t.quietLaw := by
  have hruns := State.lineRuns_of_clockView h
  simp only [State.clockView, Prod.mk.injEq] at h
  obtain ⟨hnow, -, -, hquiet⟩ := h
  simpa only [State.quietLaw, hruns, hnow, hquiet] using q

/-- Samples that pass are counted from the first that the timer counts on, and the sum is held at 65535 (R10). -/
theorem State.quietLaw_advance {s : State} (d : Nat) (q : s.quietLaw) : (s.advance d).quietLaw := by
  obtain ⟨hrun, hstop⟩ := q
  refine ⟨fun h => ?_, fun h => ?_⟩
  · have hr : s.lineRuns = true := h
    obtain ⟨hlast, helapsed, hsince⟩ := hrun hr
    simp only [State.advance_quiet, if_pos hr, QuietTimer.run, State.advance_now, Config.quietMax]
    omega
  · have hr : s.lineRuns = false := h
    simpa [State.advance_quiet, hr] using hstop hr

/-- A sample read dominant at this instant: the next is the first that counts. -/
theorem State.quietLaw_dominant (s : State) : (s.setQuiet (QuietTimer.atDominant s.now)).quietLaw := by
  simp [State.quietLaw, QuietTimer.atDominant]

/-- A timer started at this instant shows 0, whether the line interface runs or not. -/
theorem State.quietLaw_start {t : State} (h : t.quiet = QuietTimer.start t.now) : t.quietLaw := by
  simp [State.quietLaw, h, QuietTimer.start]

theorem ClockMove.quietLaw {s t : State} (m : ClockMove s t) (q : s.quietLaw) : t.quietLaw := by
  cases m with
  | still h => exact State.quietLaw_of_clockView h q
  | pass d => exact State.quietLaw_advance d q
  | dominant runs h => exact State.quietLaw_of_clockView h s.quietLaw_dominant
  | reset hnow hquiet => exact State.quietLaw_start (hnow ▸ hquiet)

/-- Settles O50: every step is a run of clock moves, and each of them keeps the law. -/
theorem everyStepKeepsTheQuietLaw : Obligations.EveryStepKeepsTheQuietLaw :=
  fun _ _ q e => step_keeps_clock (fun _ _ m => m.quietLaw) q e

end Sys2Proof.Machine
end

section
/-! The samples that pass: the driver across the end of a stop cell, the character presented at the start of one, and
the level of LTX. -/

namespace Sys2Proof.Machine

open Sys2Proof

/-! ## The driver's clock (R11) -/

/-- At the end of a stop cell compared, the character presented begins. -/
theorem Driver.runTo_next {d : Driver} {t : Nat} {c : LineChar} (hd : d.cond = .driving) (hs : d.sent = true)
    (ht : d.charStart + 176 ≤ t) (hn : d.next = some c) :
    d.runTo t = { cond := .driving, char := c, charStart := d.charStart + 176, sent := false, next := none } := by
  simp [Driver.runTo, hd, hs, ht, hn]

/-- At the end of a stop cell compared, with no character presented, the driver goes IDLE. -/
theorem Driver.runTo_last {d : Driver} {t : Nat} (hd : d.cond = .driving) (hs : d.sent = true)
    (ht : d.charStart + 176 ≤ t) (hn : d.next = none) : d.runTo t = Driver.init := by
  simp [Driver.runTo, hd, hs, ht, hn]

/-- Until then the driver stays as it is. -/
theorem Driver.runTo_still {d : Driver} {t : Nat} (h : ¬ (d.cond = .driving ∧ d.sent = true ∧ d.charStart + 176 ≤ t)) :
    d.runTo t = d := if_neg h

/-! ## The character presented (R34) -/

theorem Emitter.lineChar_next (s : State) : s.em.lineChar s.pool.cells (s.em.index + 1) = nextCharOf s := by
  simp only [Emitter.lineChar, nextCharOf, Emitter.charByte, LineChar.mk.injEq]
  refine ⟨?_, by simp⟩
  rw [show s.em.index + 1 + 2 = s.em.index + 3 from rfl, show s.em.index + 1 - 3 = s.em.index - 2 by omega]

theorem Emitter.cover_next (s : State) : s.em.cover s.pool.cells (s.em.index + 1) = coversNext s := by
  unfold coversNext
  rw [← Emitter.lineChar_next, show s.em.index + 3 = s.em.index + 1 + 2 from rfl]
  unfold Emitter.cover
  split <;> rfl

theorem Emitter.presentsTo_iff (em : Emitter) (d : Driver) (t : Nat) :
    em.presentsTo d t = true ↔
      em.cond = .emitting ∧ em.index + 1 < em.count ∧ d.cond = .driving ∧ d.sent = false ∧ d.next = none ∧
        d.charStart + 160 ≤ t := by
  simp only [Emitter.presentsTo, decide_eq_true_eq, Config.stopStart]

section
variable {s : State} {d : Nat}

/-- Samples that bring the next character: it stands presented to the driver and covered. -/
theorem State.advance_presents
    (h : s.em.presentsTo (s.driver.runTo (s.now + d)) (s.now + d) = true) :
    (s.advance d).driver = { s.driver.runTo (s.now + d) with next := some (nextCharOf s) } ∧
      (s.advance d).em = coversNext s := by
  rw [State.advance_driver, State.advance_em, if_pos h, if_pos h, Emitter.lineChar_next, Emitter.cover_next]
  exact ⟨rfl, rfl⟩

/-- Samples that bring none: the driver's clock alone has run. -/
theorem State.advance_presents_none
    (h : ¬ s.em.presentsTo (s.driver.runTo (s.now + d)) (s.now + d) = true) :
    (s.advance d).driver = s.driver.runTo (s.now + d) ∧ (s.advance d).em = s.em := by
  rw [State.advance_driver, State.advance_em, if_neg h, if_neg h]
  exact ⟨rfl, rfl⟩

/-- The end of a stop cell compared with none presented leaves the driver IDLE. -/
theorem State.advance_ends (hd : s.driver.cond = .driving) (hs : s.driver.sent = true)
    (ht : s.driver.charStart + 176 ≤ s.now + d) (hn : s.driver.next = none) :
    (s.advance d).driver = Driver.init ∧ (s.advance d).em = s.em := by
  have hrun := Driver.runTo_last hd hs ht hn
  obtain ⟨hdriver, hem⟩ := State.advance_presents_none (s := s) (d := d)
    (by simp [Emitter.presentsTo_iff, hrun, Driver.init])
  exact ⟨hdriver.trans hrun, hem⟩

/-- The end of a stop cell compared begins the character presented, and the start of its stop cell, 160 samples on,
presents the one after it. -/
theorem State.advance_begins {c : LineChar} (hd : s.driver.cond = .driving) (hs : s.driver.sent = true)
    (ht : s.driver.charStart + 176 ≤ s.now + d) (hn : s.driver.next = some c) :
    ∃ n, (s.advance d).driver =
        { cond := .driving, char := c, charStart := s.driver.charStart + 176, sent := false, next := n } ∧
      ((s.em.cond = .emitting ∧ s.em.index + 1 < s.em.count) ∧ s.driver.charStart + 336 ≤ s.now + d →
        n = some (nextCharOf s) ∧ (s.advance d).em = coversNext s) ∧
      (¬ ((s.em.cond = .emitting ∧ s.em.index + 1 < s.em.count) ∧ s.driver.charStart + 336 ≤ s.now + d) →
        n = none ∧ (s.advance d).em = s.em) := by
  have hrun := Driver.runTo_next hd hs ht hn
  have hiff : s.em.presentsTo (s.driver.runTo (s.now + d)) (s.now + d) = true ↔
      (s.em.cond = .emitting ∧ s.em.index + 1 < s.em.count) ∧ s.driver.charStart + 336 ≤ s.now + d := by
    simp [Emitter.presentsTo_iff, hrun, and_assoc, Nat.add_assoc]
  by_cases hp : s.em.presentsTo (s.driver.runTo (s.now + d)) (s.now + d) = true
  · obtain ⟨hdriver, hem⟩ := State.advance_presents hp
    exact ⟨some (nextCharOf s), by rw [hdriver, hrun], fun _ => ⟨rfl, hem⟩, fun h => absurd (hiff.1 hp) h⟩
  · obtain ⟨hdriver, hem⟩ := State.advance_presents_none hp
    exact ⟨none, by rw [hdriver, hrun], fun h => absurd (hiff.2 h) hp, fun _ => ⟨rfl, hem⟩⟩

/-- The start of a stop cell presents the next character of the frame. -/
theorem State.advance_stopCell (hem : s.em.cond = .emitting) (hmore : s.em.index + 1 < s.em.count)
    (hd : s.driver.cond = .driving) (hs : s.driver.sent = false) (hn : s.driver.next = none)
    (ht : s.driver.charStart + 160 ≤ s.now + d) :
    (s.advance d).driver = { s.driver with next := some (nextCharOf s) } ∧ (s.advance d).em = coversNext s := by
  have hrun : s.driver.runTo (s.now + d) = s.driver := Driver.runTo_still (by simp [hs])
  have h := State.advance_presents (s := s) (d := d) (by
    rw [hrun, Emitter.presentsTo_iff]; exact ⟨hem, hmore, hd, hs, hn, ht⟩)
  rwa [hrun] at h

/-- With neither the end of a stop cell compared nor a character to present, driver and emitter stay. -/
theorem State.advance_undisturbed
    (hend : ¬ (s.driver.cond = .driving ∧ s.driver.sent = true ∧ s.driver.charStart + 176 ≤ s.now + d))
    (hstop : ¬ ((s.em.cond = .emitting ∧ s.em.index + 1 < s.em.count) ∧ s.driver.cond = .driving ∧
      s.driver.sent = false ∧ s.driver.next = none ∧ s.driver.charStart + 160 ≤ s.now + d)) :
    (s.advance d).driver = s.driver ∧ (s.advance d).em = s.em := by
  have hrun := Driver.runTo_still hend
  have h := State.advance_presents_none (s := s) (d := d) (by
    rw [hrun, Emitter.presentsTo_iff, ← and_assoc]; exact hstop)
  rwa [hrun] at h

end

/-- The line interface stands still while RSTn is low or the straps are invalid (R2, R3). -/
theorem State.lineRuns_false {s : State} (h : s.rstLow = true ∨ s.straps.valid = false) : s.lineRuns = false := by
  rcases h with h | h <;> simp [State.lineRuns, h]

/-- Settles O2: the cases of the driver's clock (`Driver.runTo`) with those of the presentation
(`Emitter.presentsTo`). -/
theorem passingSamplesMoveOnlyTheClocks : Obligations.PassingSamplesMoveOnlyTheClocks := by
  intro s d more ended stopCell hmore hended hstop
  rw [hmore] at hstop
  simp only [hmore, hended, hstop]
  refine ⟨rfl, ?_, ?_, ?_, ?_, ?_, State.advance_undisturbed, rfl, fun _ => rfl⟩
  · rintro ⟨hrst, hvalid⟩
    rw [State.advance_quiet, if_pos (State.lineRuns_of hrst hvalid)]; rfl
  · intro hstill
    rw [State.advance_quiet, if_neg (by simp [State.lineRuns_false hstill])]
  · rintro ⟨hd, hs, ht⟩ hn
    obtain ⟨hdriver, hem⟩ := State.advance_ends hd hs ht hn
    exact ⟨by rw [hdriver]; rfl, hem⟩
  · rintro c ⟨hd, hs, ht⟩ hn
    exact State.advance_begins hd hs ht hn
  · rintro ⟨⟨hem, hcount⟩, hd, hs, hn, ht⟩
    exact State.advance_stopCell hem hcount hd hs hn ht

end Sys2Proof.Machine
end

section
/-! The pins and the receiver: the resets, the samples read, the start edge, and the end of FINISHING. -/

namespace Sys2Proof.Machine

open Sys2Proof

/-! ## The resets (R2, R3) -/

theorem strapsValid_iff (own highest : Nat) :
    strapsValid own highest = true ↔ 1 ≤ highest ∧ highest ≤ 30 ∧ own ≤ highest := by
  simp [strapsValid]

/-- With valid straps the release enters LISTEN, its reset state (R65). -/
theorem Rotation.released_valid {t : Nat} {v : Bool} (h : v = true) :
    Rotation.released t v = { State.reset.rot with listenEntry := t } := by
  subst h; rfl

/-- With invalid straps the release enters STRAP_FAULT with the change flag set (R2). -/
theorem Rotation.released_invalid {t : Nat} {v : Bool} (h : v = false) :
    Rotation.released t v =
      { State.reset.rot with
        station := .strapFault, changeFlag := true, setSinceSnapshot := true, listenEntry := t } := by
  subst h; rfl

/-- Settles O3: both resets are `State.pinReset`, the release with the straps judged. -/
theorem pinResetAndRelease : Obligations.PinResetAndRelease := by
  refine ⟨fun dt s => ⟨_, rfl, rfl, rfl, rfl, rfl⟩, fun dt sn hn rate csnLow s hlow => ?_⟩
  have hexec : exec (.rstnRelease dt sn hn rate csnLow) s =
      .next ((s.advance dt).release sn.toNat hn.toNat rate.toNat csnLow) :=
    congrArg Host.Outcome.next (if_pos hlow)
  refine ⟨_, hexec, rfl, rfl, rfl, strapsValid_iff .., Rotation.released_valid, Rotation.released_invalid, ?_, rfl⟩
  cases hv : strapsValid sn.toNat hn.toNat <;>
    simp [State.release, State.attn, State.pinReset, State.resetBlocks, hv, Rotation.released, Rotation.init,
      Rotation.setChange]

/-! ## Bits from samples (R5, R6) -/

/-- A bit is 0 when two at least of its three samples were read dominant. -/
theorem Receiver.bit_eq_false_iff (r : Receiver) (n : Nat) :
    r.bit n = false ↔
      16 * n + 7 ∈ r.lows ∧ 16 * n + 8 ∈ r.lows ∨ 16 * n + 7 ∈ r.lows ∧ 16 * n + 9 ∈ r.lows ∨
        16 * n + 8 ∈ r.lows ∧ 16 * n + 9 ∈ r.lows := by
  simp only [Receiver.bit, Receiver.tap, Receiver.sample]
  by_cases h7 : 16 * n + 7 ∈ r.lows <;> by_cases h8 : 16 * n + 8 ∈ r.lows <;>
    by_cases h9 : 16 * n + 9 ∈ r.lows <;> simp [h7, h8, h9, majority, levelBit]

/-- Bit `i` of a number written from its bits, bit 0 first. -/
theorem testBit_foldr_bits (bits : List Bool) (i : Nat) :
    (bits.foldr (fun (b : Bool) n => b.toNat + 2 * n) 0).testBit i = bits.getD i false := by
  induction bits generalizing i with
  | nil => simp
  | cons b rest ih =>
    rw [List.foldr_cons, show ∀ m, b.toNat + 2 * m = Nat.bit b m from fun m => by rw [Nat.bit_val, add_comm]]
    cases i with
    | zero => simp
    | succ i => rw [Nat.testBit_bit_succ, ih, List.getD_cons_succ]

theorem getLsbD_byteOfBits (bits : List Bool) {i : Nat} (h : i < 8) :
    (byteOfBits bits).getLsbD i = bits.getD i false := by
  rw [byteOfBits, BitVec.getLsbD_ofNat, testBit_foldr_bits]
  simp [h]

/-- The data byte is that of cells 1 to 8, least significant first. -/
theorem takenData_getLsbD (r : Receiver) {i : Nat} (h : i < 8) : (takenData r).getLsbD i = r.bit (i + 1) := by
  rw [takenData, getLsbD_byteOfBits _ h, List.getD_eq_getElem?_getD, List.getElem?_map, List.getElem?_range h]
  rfl

/-- The bits taken so far are those of the first cells, up to the last mid-bit reached. -/
theorem Receiver.bitsTaken_eq (r : Receiver) {t k : Nat} (hk : k ≤ 11)
    (h : ∀ n, n < 11 → (r.startInstant + 16 * n + 9 ≤ t ↔ n < k)) : r.bitsTaken t = (List.range k).map r.bit := by
  have hcells : (List.range 11).filter (fun cell => decide (r.startInstant + Config.midBit cell ≤ t)) = List.range k := by
    have hmid : ∀ n ∈ List.range 11, decide (r.startInstant + Config.midBit n ≤ t) = decide (n < k) := fun n hn => by
      rw [← Nat.add_assoc, decide_eq_decide]; exact h n (List.mem_range.1 hn)
    rw [List.filter_congr hmid]
    interval_cases k <;> rfl
  rw [Receiver.bitsTaken, hcells]

/-! ## Samples read (R6, R9, R10) -/

section
variable {s : State}

/-- The two readings of a running line interface: RSTn high with valid straps. -/
theorem State.lineRuns_iff : s.lineRuns = true ↔ s.rstLow = false ∧ s.straps.valid = true := by
  simp [State.lineRuns]

/-- The timer after a sample read dominant counts from the next sample on (R10; assumption log 27). -/
theorem State.runTo_quiet_after_dominant {t : State} (hr : t.lineRuns = true)
    (hq : t.quiet = QuietTimer.atDominant t.now) (i : Nat) :
    (t.runTo i).quiet.elapsed = min 65535 (i - (t.now + 1)) := by
  simp only [State.runTo, State.advance_quiet, if_pos hr, hq, QuietTimer.run, QuietTimer.atDominant, Config.quietMax]
  omega

theorem exec_dominantSample_runs (dt : Nat) (hr : s.lineRuns = true) :
    exec (.dominantSample dt) s = .next (s.advance dt).dominantSample :=
  congrArg Host.Outcome.next (if_pos hr)

end

/-- Settles O5: each sample is one operation on timer and receiver, and a character's bits follow from the samples
read dominant. -/
theorem samplesReachTheReceiver : Obligations.SamplesReachTheReceiver := by
  refine ⟨fun dt s => ?_, fun dt i s t hrst hvalid e => ?_, fun dt s hrst hvalid => ?_, fun r => ?_⟩
  · simp only [← State.lineRuns_iff]
    by_cases hr : s.lineRuns = true
    · rw [exec_dominantSample_runs dt hr, if_pos hr]; rfl
    · rw [if_neg hr]; exact congrArg Host.Outcome.next (if_neg hr)
  · have hr := State.lineRuns_of hrst hvalid
    rw [exec_dominantSample_runs dt hr] at e
    injection e with e
    subst e
    exact State.runTo_quiet_after_dominant (t := (s.advance dt).dominantSample) hr rfl i
  · exact congrArg Host.Outcome.next (if_pos (State.lineRuns_of hrst hvalid))
  · exact ⟨r.bit_eq_false_iff, fun i => takenData_getLsbD r, rfl, by simp [takenFaulty],
      fun t k hk h => r.bitsTaken_eq hk h⟩

/-! ## Start edges (R7, R15) -/

theorem Driver.inStartCell_iff (d : Driver) (t : Nat) :
    d.inStartCell t = true ↔ d.cond = .driving ∧ d.sent = false ∧ d.charStart ≤ t ∧ t < d.charStart + 16 := by
  simp [Driver.inStartCell, and_assoc]

/-- Settles O6: a start edge is a dominant sample, and in HUNTING, armed, the sample 0 of a character. -/
theorem startEdgeResult : Obligations.StartEdgeResult := by
  intro dt s hrst hvalid
  have hr : (s.advance dt).lineRuns = true := State.lineRuns_of hrst hvalid
  by_cases harmed : s.rx.cond = .hunting ∧ s.rx.awaitRecessive = false
  · have hexec : (s.advance dt).startEdge = (s.advance dt).dominantSample.setRx
        { cond := .receiving, awaitRecessive := false, startInstant := s.now + dt,
          driven := (s.advance dt).driver.inStartCell (s.now + dt), lows := [0] } := by
      rw [State.startEdge, if_pos hr, if_pos (by exact harmed)]; rfl
    exact ⟨_, congrArg Host.Outcome.next hexec, fun _ => ⟨rfl, rfl, rfl, rfl, Driver.inStartCell_iff ..⟩,
      fun h => absurd harmed h, rfl⟩
  · have hexec : (s.advance dt).startEdge = (s.advance dt).dominantSample := by
      rw [State.startEdge, if_pos hr, if_neg (by exact harmed)]
    exact ⟨_, congrArg Host.Outcome.next hexec, fun h => absurd h harmed, fun _ => rfl, rfl⟩

/-! ## The end of FINISHING (R16) -/

/-- FINISHING that ends at instant `T` ends there with the line interface and the emitter reset. -/
theorem exec_finishingEnd_at {s : State} {m : Option (Fin 11 × Tap)} {T : Nat} (hd : s.driver.cond = .finishing)
    (hT : s.driver.finishingInstant m = some T) : exec (.finishingEnd m) s = .next (s.runTo T).endFinishing := by
  simp only [exec, execFinishingEnd, if_pos hd, hT]

/-- Settles O22: the two ends of FINISHING give its instant, and `State.endFinishing` the rest. -/
theorem finishingEndResult : Obligations.FinishingEndResult := by
  intro s m T hd hm
  have hT : s.driver.finishingInstant m = some T := by
    rcases hm with ⟨rfl, rfl⟩ | ⟨cell, tap, rfl, hsent, hdiffers, rfl⟩
    · rfl
    · simp [Driver.finishingInstant, hsent, hdiffers, Nat.add_assoc]
  have hnow : (s.runTo T).now = max s.now T := s.runTo_now T
  rw [exec_finishingEnd_at hd hT, ← hnow]
  rfl

end Sys2Proof.Machine
end

section
/-! Characters sent: the cells on LTX, and the compare of a stop cell. -/

namespace Sys2Proof.Machine

open Sys2Proof

/-! ## The cells of a character (R5) -/

theorem charLevel_start (c : LineChar) : charLevel c 0 = .dominant := rfl

theorem charLevel_data (c : LineChar) {n : Nat} (h : n < 8) :
    charLevel c (n + 1) = if c.data.getLsbD n = true then .recessive else .dominant := by
  rw [charLevel, if_neg (by omega), if_pos (by omega)]
  rfl

theorem charLevel_edge (c : LineChar) : charLevel c 9 = if c.edge = true then .recessive else .dominant := rfl

theorem charLevel_stop (c : LineChar) : charLevel c 10 = .recessive := rfl

/-! ## The level of LTX (R11) -/

theorem State.ltxLow_idle {s : State} (h : s.driver.cond = .idle) : s.ltxLow = false := by
  simp [State.ltxLow, h]

/-- Within a cell of the character being driven, LTX is low exactly when the cell is dominant. -/
theorem State.ltxLow_cell {s : State} {cell : Nat} (hd : s.driver.cond ≠ .idle)
    (hfrom : s.driver.charStart + 16 * cell ≤ s.now) (hto : s.now < s.driver.charStart + 16 * cell + 16) :
    s.ltxLow = true ↔ charLevel s.driver.char cell = .dominant := by
  have hcell : (s.now - s.driver.charStart) / Config.bitTime = cell := by
    rw [Config.bitTime]; omega
  simp [State.ltxLow, hcell, hd]

/-- Until the end of its stop cell a driver goes on with its character, whatever is presented to it meanwhile. -/
theorem State.advance_driver_within {s : State} {d : Nat} (h : s.now + d < s.driver.charStart + 176) :
    (s.advance d).driver.cond = s.driver.cond ∧ (s.advance d).driver.char = s.driver.char ∧
      (s.advance d).driver.charStart = s.driver.charStart := by
  rw [State.advance_driver, Driver.runTo_still (by omega)]
  split <;> exact ⟨rfl, rfl, rfl⟩

/-- LTX at instant `T`: released with an IDLE driver, the cells of the character being driven, the cells of the character
that follows it, and released when none does. -/
theorem State.ltxLow_runTo (s : State) (T : Nat) (hT : s.now ≤ T) :
    (s.driver.cond = .idle → (s.runTo T).ltxLow = false) ∧
    (∀ cell, s.driver.cond ≠ .idle → cell < 11 → s.driver.charStart + 16 * cell ≤ T →
      T < s.driver.charStart + 16 * cell + 16 →
      ((s.runTo T).ltxLow = true ↔ charLevel s.driver.char cell = .dominant)) ∧
    (∀ cell c, s.driver.cond = .driving → s.driver.sent = true → s.driver.next = some c → cell < 11 →
      s.driver.charStart + 176 + 16 * cell ≤ T → T < s.driver.charStart + 176 + 16 * cell + 16 →
      ((s.runTo T).ltxLow = true ↔ charLevel c cell = .dominant)) ∧
    (s.driver.cond = .driving → s.driver.sent = true → s.driver.next = none → s.driver.charStart + 176 ≤ T →
      (s.runTo T).ltxLow = false) := by
  have hnow : (s.runTo T).now = T := by rw [State.runTo_now]; omega
  refine ⟨fun hidle => ?_, fun cell hd hcell hfrom hto => ?_, fun cell c hd hs hn _ hfrom hto => ?_,
    fun hd hs hn ht => ?_⟩
  · refine State.ltxLow_idle ?_
    rw [State.runTo, State.advance_driver_still (by simp [hidle]), hidle]
  · obtain ⟨hcond, hchar, hstart⟩ := State.advance_driver_within (s := s) (d := T - s.now) (by omega)
    have h := State.ltxLow_cell (s := s.runTo T) (cell := cell) (by rw [State.runTo, hcond]; exact hd)
      (by rw [hnow, State.runTo, hstart]; exact hfrom) (by rw [hnow, State.runTo, hstart]; exact hto)
    rwa [show (s.runTo T).driver.char = s.driver.char from hchar] at h
  · obtain ⟨n, hdriver, -, -⟩ := State.advance_begins (d := T - s.now) hd hs (by omega) hn
    have h := State.ltxLow_cell (s := s.runTo T) (cell := cell) (by rw [State.runTo, hdriver]; simp)
      (by rw [hnow, State.runTo, hdriver]; exact hfrom) (by rw [hnow, State.runTo, hdriver]; exact hto)
    rwa [show (s.runTo T).driver.char = c from congrArg Driver.char hdriver] at h
  · obtain ⟨hdriver, -⟩ := State.advance_ends (d := T - s.now) hd hs (by omega) hn
    exact State.ltxLow_idle (congrArg Driver.cond hdriver)

/-! ## The driver's next compare (R11, R12) -/

section
variable {s : State}

/-- Where the next compare finds the driver DRIVING, the commands of the driver count from there. -/
theorem State.toNextStart_eq (h : (atCompare s).driver.cond = .driving) : s.toNextStart = atCompare s := by
  unfold State.toNextStart
  by_cases hs : s.driver.sent = true
  · have hc : atCompare s = s.runTo (s.driver.charStart + 176) := if_pos hs
    have hd : s.driver.cond = .driving := by
      rw [hc, State.runTo, State.advance_driver_cond] at h
      exact Driver.runTo_driving h
    rw [if_pos ⟨hd, hs⟩, hc]
  · have hc : atCompare s = s := if_neg hs
    rw [if_neg (by simp [hs]), hc]

/-- Counting from there leaves all but the clock, the quiet timer, the driver and the running CRC. -/
theorem atCompare_cases : atCompare s = s ∨ atCompare s = s.runTo (s.driver.charStart + 176) := by
  unfold atCompare
  split
  · exact .inr rfl
  · exact .inl rfl

theorem atCompare_em_cond : (atCompare s).em.cond = s.em.cond := by
  rcases atCompare_cases (s := s) with h | h <;> simp [h]

theorem atCompare_em_index : (atCompare s).em.index = s.em.index := by
  rcases atCompare_cases (s := s) with h | h <;> simp [h]

theorem atCompare_em_count : (atCompare s).em.count = s.em.count := by
  rcases atCompare_cases (s := s) with h | h <;> simp [h]

/-- A stop cell compared in agreement, in a frame being emitted, is a character sent at its mid-bit. -/
theorem exec_characterSent_agrees {tap : Tap} (hd : (atCompare s).driver.cond = .driving)
    (hs : (atCompare s).driver.sent = false) (hem : s.em.cond = .emitting) (htap : majority tap = .recessive) :
    exec (.characterSent tap) s =
      .next ((atCompare s).runTo ((atCompare s).driver.charStart + 169)).charSent := by
  refine congrArg Host.Outcome.next ?_
  rw [State.toNextStart_eq hd]
  exact if_pos ⟨hd, hs, htap, atCompare_em_cond.trans hem⟩

/-- With a further character in the frame, a character sent advances the index. -/
theorem State.charSent_more (h : s.em.index + 1 < s.em.count) :
    s.charSent = { s with
      driver := { s.driver with sent := true }, em := { s.em with index := s.em.index + 1 } } :=
  if_neg (Nat.not_le.2 h)

end

/-- Settles O19: by the mid-bit of a stop cell the samples since its start have presented the next character
(`State.advance_stopCell`), unless it was presented before. -/
theorem characterSentPresentsTheNext : Obligations.CharacterSentPresentsTheNext := by
  refine ⟨fun c => ⟨charLevel_start c, fun n => charLevel_data c, charLevel_edge c, charLevel_stop c⟩,
    State.ltxLow_runTo, ?_⟩
  rintro tap s v u rfl hd hs hem htap hmore rfl
  have hindex := atCompare_em_index (s := s)
  rw [exec_characterSent_agrees hd hs hem htap, ← hindex]
  rw [← hindex, ← atCompare_em_count] at hmore
  rw [← atCompare_em_cond] at hem
  generalize atCompare s = v at *
  rw [State.charSent_more (by simpa using hmore), State.runTo_em_index]
  refine ⟨fun hn => ?_, fun c hn => ?_⟩
  · obtain ⟨hdriver, hcovers⟩ :=
      State.advance_stopCell (d := v.driver.charStart + 169 - v.now) hem hmore hd hs hn (by omega)
    simp only [State.runTo, hdriver, hcovers]
  · obtain ⟨hdriver, hkept⟩ :=
      State.advance_undisturbed (s := v) (d := v.driver.charStart + 169 - v.now) (by simp [hs]) (by simp [hn])
    simp only [State.runTo, hdriver, hkept]

end Sys2Proof.Machine
end

section
/-! A mismatch loses the frame: what the lost report does to the rotation controller and to the frame's owner. -/

namespace Sys2Proof.Machine

open Sys2Proof

/-! ## The rotation controller at the end of an activity (R61) -/

section
variable (r : Rotation)

theorem Rotation.settle_eq : r.settle = afterActivity r := by
  simp only [Rotation.settle, afterActivity, Rotation.betweenActivities, Rotation.onLine, Bool.and_eq_true,
    Bool.not_eq_true', Bool.or_eq_true, beq_iff_eq, and_assoc]
  rfl

theorem Rotation.watchClosed_eq : r.watchClosed = afterActivity { r with answerWatch := false } :=
  Rotation.settle_eq _

theorem Rotation.answerEnded_eq : r.answerEnded = afterActivity { r with answer := false } :=
  Rotation.settle_eq _

/-- Outside LISTEN and ACTIVE no activity's end withdraws the station. -/
theorem afterActivity_offLine {r : Rotation} (h : r.station = .withdrawn) : afterActivity r = r :=
  if_neg (by simp [h])

/-- The end of the answer activity after the end of another: one test at the last is enough. -/
theorem afterActivity_answer :
    afterActivity { afterActivity r with answer := false } = afterActivity { r with answer := false } := by
  by_cases h : r.leaving = true ∧ r.ownFrame = false ∧ r.answerWatch = false ∧ r.answer = false ∧
      (r.station = .listen ∨ r.station = .active)
  · obtain ⟨hleaving, hframe, hwatch, hanswer, hline⟩ := h
    have hsame : { r with answer := false } = r := by rw [← hanswer]
    rw [hsame, show afterActivity r = withdrawn r from if_pos ⟨hleaving, hframe, hwatch, hanswer, hline⟩]
    rw [afterActivity_offLine rfl]
    simp [withdrawn, hanswer]
  · rw [show afterActivity r = r from if_neg h]

end

/-! ## A lost report at the rotation controller (R55 to R57) -/

/-- The window that an ACTIVE station holds, and the frames that belong to it (R45, R48). -/
theorem Rotation.belongs_active {r : Rotation} {start e : Nat} (ha : r.station = .active) (ht : r.tracked = some e) :
    r.belongs start = true ↔
      (r.position = .window ∨ r.position = .frame ∧ r.marker = true) ∧ e < start ∧ start < e + 448 := by
  by_cases hheld : r.position = .window ∨ r.position = .frame ∧ r.marker = true
  · simp [Rotation.belongs, Rotation.heldWindow, inWindow, ha, ht, hheld]
  · simp [Rotation.belongs, Rotation.heldWindow, ha, hheld]

theorem Rotation.onLost_eq (r : Rotation) (kind : FrameKind) (start t : Nat) (m : Mismatch) :
    r.onLost kind start t m = afterActivity (lossTaken r kind start t) := by
  have hcount : Config.faultLimit ≤ satSucc Config.faultLimit r.faultCount ↔ 8 ≤ r.faultCount + 1 := by
    simp only [satSucc, Config.faultLimit]; omega
  unfold Rotation.onLost lossTaken
  dsimp only
  by_cases h8 : 8 ≤ r.faultCount + 1
  · rw [if_pos (hcount.2 h8), if_pos h8, afterActivity_offLine rfl]
    rfl
  · rw [if_neg (mt hcount.1 h8), if_neg h8]
    by_cases ha : r.station = .active
    · rw [if_pos ha, if_pos ha, Rotation.settle_eq]
      refine congrArg afterActivity ?_
      cases ht : r.tracked with
      | none => simp [Rotation.enterListen, Rotation.unplace, satSucc]
      | some e => simp [Rotation.enterListen, Rotation.unplace, satSucc, Rotation.belongs_active ha ht]
    · rw [if_neg ha, if_neg ha, Rotation.settle_eq]
      rfl

/-! ## The frame's owner at a lost report (R91, R113, R123) -/

theorem findEntry_ref {q : List TxEntry} {ref : Nat} {e : TxEntry} (h : findEntry q ref = some e) : e.ref = ref := by
  simpa using List.find?_some h

section
variable {s : State} {ref : Nat} {e : TxEntry}

/-- A deferred cancel is concluded (R123). -/
theorem State.returnEntry_cancelled (h : findEntry s.txq ref = some e) (hc : e.cancelPending = true) :
    (s.returnEntry ref).txq = removeEntry s.txq ref ∧
      (s.returnEntry ref).compq.length = s.compq.length + 1 ∧
      (s.returnEntry ref).pool = s.pool.release (.transmit ref) := by
  have hconclude : ∃ o refresh, s.returnEntry ref = s.conclude ref o refresh := by
    simp only [State.returnEntry, h, hc, if_true, State.concludeCancelled, findEntry_ref h]
    split <;> exact ⟨_, _, rfl⟩
  obtain ⟨o, refresh, heq⟩ := hconclude
  obtain ⟨htxq, hcompq, hpool, -⟩ := State.conclude_found h o refresh
  rw [heq]
  exact ⟨htxq, by simp [hcompq], hpool⟩

/-- An entry with no cancel deferred returns to its return state, and one back in WAITING gives up its peer's reference
(R113, R74). -/
theorem State.returnEntry_returned (h : findEntry s.txq ref = some e) (hc : e.cancelPending = false) :
    (s.returnEntry ref).txq = updateEntry s.txq ref (fun x => { x with state := x.returnState }) ∧
      (s.returnEntry ref).compq = s.compq ∧ (s.returnEntry ref).pool = s.pool ∧
      (s.returnEntry ref).peers =
        if e.isCast = false ∧ e.returnState = .waiting then
          s.peers.modify e.dest fun p =>
            { p with outstanding := if p.outstanding = some ref then none else p.outstanding }
        else s.peers := by
  simp only [State.returnEntry, h, hc, Bool.false_eq_true, if_false]
  split <;> exact ⟨rfl, rfl, rfl, rfl⟩

end

section
variable (s : State)

/-- Whatever becomes of the entry, the contents of the blocks stay (R130). -/
theorem State.conclude_cells (ref : Nat) (o : TxOutcome) (refresh : Bool) :
    (s.conclude ref o refresh).pool.cells = s.pool.cells := by
  cases h : findEntry s.txq ref with
  | none => rw [State.conclude_missing h]
  | some e =>
    obtain ⟨-, -, hpool, -⟩ := State.conclude_found h o refresh
    rw [hpool, Pool.release_cells]

theorem State.returnEntry_cells (ref : Nat) : (s.returnEntry ref).pool.cells = s.pool.cells := by
  unfold State.returnEntry State.concludeCancelled
  split
  · rfl
  · split
    · split <;> exact State.conclude_cells ..
    · dsimp only; split <;> rfl

theorem State.lostReport_cells (src : FrameSource) (start : Nat) (m : Mismatch) :
    (s.lostReport src start m).pool.cells = s.pool.cells := by
  cases src with
  | none => rfl
  | answer => simp only [State.lostReport]; rw [State.endEmittedAnswer_frame]; rfl
  | transmit ref kind => cases kind <;> exact State.returnEntry_cells ..

/-- A lost report of an entry's frame tells the rotation controller and the watch, and returns the entry. -/
theorem State.lostReport_transmit {kind : FrameKind} (h : kind ≠ .answer) (ref start : Nat) (m : Mismatch) :
    s.lostReport (.transmit ref kind) start m =
      ((s.setRot (afterActivity (lossTaken s.rot kind start s.now))).setWatch
        (if kind = .data then s.watch.onLost else s.watch)).returnEntry ref := by
  rw [← Rotation.onLost_eq _ _ _ _ m]
  cases kind with
  | data => rfl
  | cast => rfl
  | answer => exact absurd rfl h

/-- A lost report of an ANSWER ends the pending answer that was being sent (R91). -/
theorem State.lostReport_answer {p : PendingAnswer} (start : Nat) (m : Mismatch) (hp : s.pend = some p)
    (hphase : p.phase = .emitting) :
    s.lostReport .answer start m =
      (s.setPend none).setRot (afterActivity { lossTaken s.rot .answer start s.now with answer := false }) := by
  rw [← afterActivity_answer, ← Rotation.onLost_eq _ _ _ _ m, ← Rotation.answerEnded_eq]
  simp only [State.lostReport, State.endEmittedAnswer, State.setRot_pend, hp, hphase, if_true]
  rfl

/-- A lost report of a superseded ANSWER ends none (R89). -/
theorem State.lostReport_superseded (start : Nat) (m : Mismatch) (hp : ∀ p, s.pend = some p → p.phase = .due) :
    s.lostReport .answer start m = s.setRot (afterActivity (lossTaken s.rot .answer start s.now)) := by
  rw [← Rotation.onLost_eq _ _ _ _ m]
  simp only [State.lostReport, State.endEmittedAnswer, State.setRot_pend]
  split
  · rename_i p hpend
    rw [if_neg (by simp [hp p hpend])]
  · rfl

end

/-! ## The compare that disagrees (R13, R14) -/

/-- The state at the mid-bit of the cell, the driver IDLE and the emitter done, to which the lost report comes. -/
def atMismatch (s : State) (cell : Fin 11) : State :=
  let v := (atCompare s).runTo ((atCompare s).driver.charStart + Config.midBit cell.val)
  ((v.setDriver Driver.init).setRx { s.rx with driven := false }).setEm Emitter.init

/-- A disagreeing compare in a frame being emitted is a lost report at the mid-bit of its cell. -/
theorem exec_mismatch {i : Instr} {cell : Fin 11} {s : State} (h : mismatchIn s i cell) :
    ∃ m, exec i s = .next ((atMismatch s cell).lostReport s.em.source s.em.frameStart m) := by
  obtain ⟨hd, hs, hem, tap, hkind⟩ := h
  have hrun : ∀ k, ∃ m,
      ((atCompare s).runTo ((atCompare s).driver.charStart + Config.midBit cell.val)).mismatch k cell.val =
        (atMismatch s cell).lostReport s.em.source s.em.frameStart m := by
    intro k
    unfold State.mismatch atMismatch
    rcases atCompare_cases (s := s) with hc | hc <;> rw [hc] <;>
      exact ⟨{ kind := k, index := s.em.index, cell := cell.val }, by simp [hem]⟩
  rcases hkind with ⟨rfl, hlevel, htap⟩ | ⟨rfl, hlevel, htap⟩
  · obtain ⟨m, hm⟩ := hrun .loss
    refine ⟨m, congrArg Host.Outcome.next ?_⟩
    rw [State.toNextStart_eq hd, if_pos (by simp [Driver.mismatchAt, hd, hs, hlevel, htap]), hm]
  · obtain ⟨m, hm⟩ := hrun .lineFault
    refine ⟨m, congrArg Host.Outcome.next ?_⟩
    rw [State.toNextStart_eq hd, if_pos (by simp [Driver.mismatchAt, hd, hs, hlevel, htap]), hm]

/-- A character that begins at the end of a stop cell compared begins 176 samples after it (R11). -/
theorem atCompare_charStart {s : State} (h : (atCompare s).driver.cond = .driving) (hs : s.driver.sent = true) :
    (atCompare s).driver.charStart = s.driver.charStart + 176 := by
  have hc : atCompare s = s.runTo (s.driver.charStart + 176) := if_pos hs
  have hd : s.driver.cond = .driving := by
    rw [hc, State.runTo, State.advance_driver_cond] at h
    exact Driver.runTo_driving h
  rw [hc, State.runTo] at h ⊢
  cases hn : s.driver.next with
  | none =>
    obtain ⟨hdriver, -⟩ := State.advance_ends (d := s.driver.charStart + 176 - s.now) hd hs (by omega) hn
    rw [hdriver] at h
    cases h
  | some c =>
    obtain ⟨n, hdriver, -, -⟩ := State.advance_begins (d := s.driver.charStart + 176 - s.now) hd hs (by omega) hn
    rw [hdriver]

/-- The instant of the report is the mid-bit of the cell, or this instant when it is past. -/
theorem atMismatch_now {s : State} (cell : Fin 11) (h : (atCompare s).driver.cond = .driving) :
    (atMismatch s cell).now = max s.now ((atCompare s).driver.charStart + 16 * cell.val + 9) := by
  have hnow : (atMismatch s cell).now =
      max (atCompare s).now ((atCompare s).driver.charStart + (16 * cell.val + 9)) := State.runTo_now ..
  rw [hnow]
  by_cases hs : s.driver.sent = true
  · rw [atCompare_charStart h hs, show (atCompare s).now = max s.now (s.driver.charStart + 176) by
      rw [atCompare, if_pos hs, State.runTo_now]]
    omega
  · rw [show atCompare s = s from if_neg hs, Nat.add_assoc]

/-- What the report finds as it was: the run up to it moves only the clock, the timer, the driver and the CRC. -/
theorem atMismatch_frame (s : State) (cell : Fin 11) :
    atMismatch s cell = { s with
      now := (atMismatch s cell).now, quiet := (atMismatch s cell).quiet, driver := Driver.init,
      em := Emitter.init, rx := { s.rx with driven := false } } := by
  unfold atMismatch
  rcases atCompare_cases (s := s) with hc | hc <;> rw [hc] <;> rfl

/-- Settles O21: the report's instant, what it leaves (`State.lostReport_touched`), and its effect by the frame's
source. -/
theorem mismatchLosesTheFrame : Obligations.MismatchLosesTheFrame := by
  intro i cell s h
  obtain ⟨m, hexec⟩ := exec_mismatch h
  have hnow := atMismatch_now cell h.1
  have hframe := atMismatch_frame s cell
  generalize atMismatch s cell = u at *
  have htouched := u.lostReport_touched s.em.source s.em.frameStart m
  have hdriver : (u.lostReport s.em.source s.em.frameStart m).driver.cond = .idle := by rw [htouched, hframe]; rfl
  have hrot : u.rot = s.rot := by rw [hframe]
  have hpend : u.pend = s.pend := by rw [hframe]
  have hwatch : u.watch = s.watch := by rw [hframe]
  have htxq : u.txq = s.txq := by rw [hframe]
  have hcompq : u.compq = s.compq := by rw [hframe]
  have hpool : u.pool = s.pool := by rw [hframe]
  have hpeers : u.peers = s.peers := by rw [hframe]
  refine ⟨_, _, hexec, rfl, by rw [htouched, ← hnow], hdriver, State.ltxLow_idle hdriver, by rw [htouched, hframe],
    by rw [htouched, hframe], by rw [htouched, hframe], by rw [htouched, hframe], by rw [htouched, hframe],
    fun a => by rw [State.lostReport_cells, hpool], ?_⟩
  rw [← hnow]
  simp only [← hrot, ← hpend, ← hwatch, ← htxq, ← hcompq, ← hpool, ← hpeers]
  refine ⟨fun ref kind hsrc hkind => ?_, fun p hsrc hp hphase => ?_, fun hsrc hp => ?_⟩
  · rw [hsrc, State.lostReport_transmit _ hkind]
    refine ⟨by rw [State.returnEntry_frame]; rfl, by rw [State.returnEntry_frame]; rfl, fun w hdata hnoted => ?_,
      fun e he => State.returnEntry_cancelled he, fun e he => State.returnEntry_returned he⟩
    rw [State.returnEntry_frame]
    simp [hdata, hnoted, Watch.onLost]
  · rw [hsrc, State.lostReport_answer _ _ _ hp hphase]
    exact ⟨rfl, rfl, rfl, rfl, rfl, rfl, rfl⟩
  · rw [hsrc, State.lostReport_superseded _ _ _ hp]
    exact ⟨rfl, rfl, rfl, rfl, rfl, rfl, rfl⟩

end Sys2Proof.Machine
end

section
/-! Characters received: one that opens a frame, one that is ignored, and a start glitch. -/

namespace Sys2Proof.Machine

open Sys2Proof

/-! ## A watch result at the queues -/

/-- The state `s` with the queues, the pool and the peer table of `q`. -/
def State.withQueues (s q : State) : State :=
  { s with txq := q.txq, compq := q.compq, pool := q.pool, peers := q.peers }

/-- A conclusion reads and changes the queues, the pool and the peer table alone. -/
theorem State.conclude_withQueues (s q : State) (ref : Nat) (o : TxOutcome) (refresh : Bool) :
    (s.withQueues q).conclude ref o refresh = s.withQueues (q.conclude ref o refresh) := by
  unfold State.conclude
  rw [show (s.withQueues q).txq = q.txq from rfl]
  cases findEntry q.txq ref with
  | none => rfl
  | some e => cases he : e.isCast <;> simp only [he, if_true, Bool.false_eq_true, if_false] <;> rfl

/-- So does a watch result. -/
theorem State.applyWatchResult_withQueues (s q : State) (ref : Nat) (r : WatchResult) :
    (s.withQueues q).applyWatchResult ref r = s.withQueues (q.applyWatchResult ref r) := by
  unfold State.applyWatchResult
  rw [show (s.withQueues q).txq = q.txq from rfl]
  cases findEntry q.txq ref with
  | none => rfl
  | some e =>
    by_cases he : e.state = .inFlight
    · simp only [if_pos he]
      cases (e.countResult r).resultEffect r with
      | conclude o refresh =>
        exact State.conclude_withQueues s (q.setTxq (updateEntry q.txq ref fun e => e.countResult r)) ref o refresh
      | outstanding refresh => cases refresh <;> rfl
    · simp only [if_neg he]

/-- A watch result in a state that agrees with `s` on the queues, the pool and the peer table. -/
theorem State.applyWatchResult_of_queues {s t : State} (h : t = t.withQueues s) (ref : Nat) (r : WatchResult) :
    t.applyWatchResult ref r = t.withQueues (s.applyWatchResult ref r) := by
  conv_lhs => rw [h]
  exact State.applyWatchResult_withQueues ..

/-- The close of the watch where receiver, assembler and rotation controller have moved on from `s`: the result is applied
as in `s`, and the watch activity ends (R97). -/
theorem State.closeWatch_from {s t : State} (h : t = { s with rx := t.rx, asm := t.asm, rot := t.rot }) (w : Watched)
    (r : WatchResult) :
    t.closeWatch w r =
      { s.applyWatchResult w.entry r with
        rx := t.rx, asm := t.asm, watch := .shut, rot := afterActivity { t.rot with answerWatch := false } } := by
  unfold State.closeWatch
  rw [Rotation.watchClosed_eq, State.applyWatchResult_of_queues (s := s) (by rw [h]; rfl), State.applyWatchResult_frame s]
  conv_lhs => rw [h]
  rfl

/-- The close of the watch. -/
theorem State.closeWatch_eq (s : State) (w : Watched) (r : WatchResult) :
    s.closeWatch w r =
      { s.applyWatchResult w.entry r with
        watch := .shut, rot := afterActivity { s.rot with answerWatch := false } } := by
  rw [State.closeWatch_from (s := s) rfl, State.applyWatchResult_frame]

/-! ## The watch and the window that wait for a character (R47, R95) -/

theorem inWindow_iff (e start : Nat) : inWindow e start = true ↔ inWindowOf e start := by
  simp [inWindow, inWindowOf]

section
variable {s : State} {start : Nat}

/-- A watch that waited for a character closes with no answer. -/
theorem State.watchPassed_waited {w : Watched} (hw : s.watch.watched = some w)
    (h : watchWaited s.watch start s.now) : s.watchPassed start = s.closeWatch w .noAnswer := by
  obtain ⟨x, e, hx, hin, hpast⟩ := h
  rw [hx] at hw
  cases hw
  simp only [State.watchPassed, hx]
  exact if_pos ⟨(inWindow_iff e start).2 hin, hpast⟩

/-- A watch that did not wait for it stays. -/
theorem State.watchPassed_notWaited (h : ¬ watchWaited s.watch start s.now) : s.watchPassed start = s := by
  unfold State.watchPassed
  split
  · rename_i x e hx
    exact if_neg fun hin => h ⟨x, e, hx, (inWindow_iff e start).1 hin.1, hin.2⟩
  · rfl
  · rfl
  · rfl

/-- A watch whose own the damage is closes with no answer. -/
theorem State.watchDamage_takes {w : Watched} (hw : s.watch.watched = some w) (h : watchTakes s.watch start) :
    s.watchDamage start = s.closeWatch w .noAnswer := by
  rcases h with ⟨x, e, hx, hin⟩ | ⟨x, e, held, hx, hheld⟩
  · rw [hx] at hw
    cases hw
    simp only [State.watchDamage, hx]
    exact if_pos ((inWindow_iff e start).2 hin)
  · rw [hx] at hw
    cases hw
    simp only [State.watchDamage, hx]
    exact if_pos hheld.symm

/-- A watch with no part in the damage stays. -/
theorem State.watchDamage_notTakes (h : ¬ watchTakes s.watch start) : s.watchDamage start = s := by
  unfold State.watchDamage
  split
  · rename_i x e hx
    exact if_neg fun hin => h (.inl ⟨x, e, hx, (inWindow_iff e start).1 hin⟩)
  · rename_i x e held hx
    exact if_neg fun hheld => h (.inr ⟨x, e, held, hx, hheld.symm⟩)
  · rfl
  · rfl

/-- A glitch at the rotation controller's window. -/
theorem State.glitchWindow_eq (s : State) (start : Nat) :
    s.glitchWindow start = s.setRot (windowPassed s.rot start s.now) := by
  unfold State.glitchWindow windowPassed
  cases s.rot.tracked with
  | none => rfl
  | some e =>
    simp only [inWindow_iff]
    split <;> rfl

end

/-! ## The character taken (R8, R16) -/

section
variable {s : State} (o : EndOrder)

/-- The state at the mid-bit of the stop cell, with the receiver released. -/
def atStop (s : State) : State :=
  { s.runTo (s.rx.startInstant + 169) with
    rx := rxAfter s (if takenFaulty s.rx = true then .blocked else .hunting) }

theorem atStop_now : (atStop s).now = max s.now (s.rx.startInstant + 169) := State.runTo_now ..

/-- A confirmed character goes to the assembler at the mid-bit of its stop cell, unless the driver is FINISHING. -/
theorem exec_characterDelivered_taken (hr : s.lineRuns = true) (hrx : s.rx.cond = .receiving)
    (hc : s.rx.confirmed = true) :
    exec (.characterDelivered o.rotationFirst o.offerFirst) s =
      .next (if s.driver.cond = .finishing then atStop s else (atStop s).deliver o s.rx.char) := by
  have hfinishing : (s.runTo (s.rx.startInstant + 169)).driver.cond = .finishing ↔ s.driver.cond = .finishing := by
    rw [State.runTo, State.advance_driver_cond, Driver.runTo_finishing]
  refine congrArg Host.Outcome.next ((if_pos ⟨hr, hrx, hc⟩).trans ?_)
  by_cases hf : s.driver.cond = .finishing
  · rw [if_pos hf]; exact if_pos (hfinishing.2 hf)
  · rw [if_neg hf]; exact if_neg (mt hfinishing.1 hf)

/-- A DISCARDING assembler ignores the character, and a watch may have waited for it (R28, R95). -/
theorem State.deliver_discarding {c : RxChar} (h : s.asm.cond = .discarding) :
    s.deliver o c = s.watchPassed c.start := by
  unfold State.deliver
  simp only [Assembler.deliver, h, State.notice, if_true]
  rfl

end

/-- Settles O10: with a FINISHING driver the receiver alone is told of the character, and a DISCARDING assembler leaves it
to the watch. -/
theorem characterIgnored : Obligations.CharacterIgnored := by
  rintro o s u waited hrst hvalid hrx hc hignored rfl hwaited
  rw [exec_characterDelivered_taken o (State.lineRuns_of hrst hvalid) hrx hc, hwaited, ← atStop_now]
  by_cases hf : s.driver.cond = .finishing
  · rw [if_pos hf]
    exact ⟨fun _ => rfl, fun w h => absurd hf h.1⟩
  · have hdiscarding : (atStop s).asm.cond = .discarding := hignored.resolve_left hf
    rw [if_neg hf, State.deliver_discarding o hdiscarding]
    refine ⟨fun h => ?_, fun w h hw => ?_⟩
    · exact congrArg Host.Outcome.next (State.watchPassed_notWaited fun g => h ⟨hf, g⟩)
    · exact congrArg Host.Outcome.next ((State.watchPassed_waited (s := atStop s) hw h.2).trans (State.closeWatch_eq ..))

/-! ## A frame opened (R22, R42, R45, R94) -/

/-- Char 0 that passes its checks opens the frame. -/
theorem Assembler.openFrame_opens {a : Assembler} {h : Nat} {c : RxChar} {k : FrameKind} (hf : c.faulty = false)
    (he : c.edge = true) (hk : kindOf c.data = some k) (hn : stationField c.data ≠ 31)
    (hh : stationField c.data ≤ h) : a.openFrame h c = ((a.takeChar0 c).opened k, .opened c.start k) := by
  simp [Assembler.openFrame, hf, he, hk, checkChar0, hn, hh]

/-- The character that opens a frame changes the assembler, the rotation controller and the watch. -/
theorem State.deliver_opens {s : State} {o : EndOrder} {c : RxChar} {k : FrameKind} (ha : s.asm.cond = .idle)
    (hf : c.faulty = false) (he : c.edge = true) (hk : kindOf c.data = some k) (hn : stationField c.data ≠ 31)
    (hh : stationField c.data ≤ s.straps.highest) :
    s.deliver o c = { s with
      asm := (s.asm.takeChar0 c).opened k, rot := s.rot.onFrameOpened c.start,
      watch := s.watch.onFrameOpened c.start k } := by
  unfold State.deliver
  simp only [Assembler.deliver, ha, Assembler.openFrame_opens hf he hk hn hh, State.notice, reduceCtorEq, if_false]
  rfl

section
variable {r : Rotation} {start : Nat}

theorem Rotation.onFrameOpened_offLine (h : r.station ≠ .active) : r.onFrameOpened start = r := if_neg h

theorem Rotation.onFrameOpened_waiting (ha : r.station = .active) (hp : r.position = .slot ∨ r.position = .restDue) :
    r.onFrameOpened start = { r with position := .frame, marker := false } := by
  rcases hp with hp | hp <;> simp [Rotation.onFrameOpened, ha, hp]

theorem Rotation.onFrameOpened_still (hp : r.position = .frame ∨ r.position = .unplaced) :
    r.onFrameOpened start = r := by
  rcases hp with hp | hp <;> simp [Rotation.onFrameOpened, hp]

/-- A frame of the window in position WINDOW (R45). -/
theorem Rotation.onFrameOpened_window {e : Nat} (ha : r.station = .active) (hp : r.position = .window)
    (ht : r.tracked = some e) (hin : inWindowOf e start) :
    r.onFrameOpened start = { r with position := .frame, marker := true } := by
  have hb : r.belongs start = true := (Rotation.belongs_active ha ht).2 ⟨.inl hp, hin⟩
  simp [Rotation.onFrameOpened, ha, hp, hb]

/-- A frame that began outside the window leaves the position WINDOW (assumption log 36). -/
theorem Rotation.onFrameOpened_outside (hp : r.position = .window)
    (hout : ∀ e, r.tracked = some e → ¬ inWindowOf e start) : r.onFrameOpened start = r := by
  by_cases ha : r.station = .active
  · have hb : ¬ r.belongs start = true := by
      cases ht : r.tracked with
      | none => simp [Rotation.belongs, Rotation.heldWindow, ht]
      | some e => exact fun h => hout e ht ((Rotation.belongs_active ha ht).1 h).2
    simp [Rotation.onFrameOpened, hp, hb]
  · exact Rotation.onFrameOpened_offLine ha

end

/-- An OPEN watch holds a frame of its window, in time from E + 3 T to E + 12 T (R94). -/
theorem Watch.onFrameOpened_holds {x : Watched} {e start : Nat} (k : FrameKind) (hin : inWindowOf e start) :
    (Watch.opened x e).onFrameOpened start k =
      .holding x e { start := start, kind := k, inTime := decide (e + 48 ≤ start ∧ start ≤ e + 192) } :=
  if_pos ((inWindow_iff e start).2 hin)

/-- Any other frame leaves the watch (assumption log 36). -/
theorem Watch.onFrameOpened_outside {w : Watch} {start : Nat} (k : FrameKind)
    (hout : ∀ x e, w = .opened x e → ¬ inWindowOf e start) : w.onFrameOpened start k = w := by
  cases w with
  | opened x e => exact if_neg (mt (inWindow_iff e start).1 (hout x e rfl))
  | shut => rfl
  | noted x => rfl
  | holding x e held => rfl

/-- Settles O8: the assembler's notice (`State.deliver_opens`) at the rotation controller and at the watch. -/
theorem characterOpensAFrame : Obligations.CharacterOpensAFrame := by
  rintro o s k ⟨hrst, hvalid, hrx, hc, hd⟩ ha hf he hk hn hh
  refine ⟨_, (exec_characterDelivered_taken o (State.lineRuns_of hrst hvalid) hrx hc).trans (congrArg _ (if_neg hd)), ?_⟩
  rw [State.deliver_opens (s := atStop s) (c := s.rx.char) ha hf he hk hn hh]
  refine ⟨?_, Rotation.onFrameOpened_waiting, fun e hactive hp ht h1 h2 => ?_, Rotation.onFrameOpened_outside, ?_,
    fun w e hw h1 h2 => ?_, Watch.onFrameOpened_outside k⟩
  · simp only [atStop, hf, Bool.false_eq_true, if_false]
    rfl
  · exact Rotation.onFrameOpened_window hactive hp ht ⟨h1, h2⟩
  · rintro (h | h)
    · exact Rotation.onFrameOpened_offLine h
    · exact Rotation.onFrameOpened_still h
  · exact (congrArg (·.onFrameOpened s.rx.startInstant k) hw).trans (Watch.onFrameOpened_holds k ⟨h1, h2⟩)

/-! ## A start glitch (R7, R25, R47, R95) -/

theorem Rotation.onDamage_eq (r : Rotation) (t : Nat) : r.onDamage t = damageTaken r t := by
  cases h : r.station <;>
    simp [Rotation.onDamage, damageTaken, h, Rotation.countDamage, Rotation.enterListen, Rotation.unplace, satSucc]

/-- Damage leaves no station ACTIVE (R50, R51). -/
theorem damageTaken_station (r : Rotation) (t : Nat) : (damageTaken r t).station ≠ .active := by
  unfold damageTaken
  split <;> simp_all

theorem afterActivity_station {r : Rotation} (h : r.station ≠ .active) : (afterActivity r).station ≠ .active := by
  unfold afterActivity
  split
  · simp [withdrawn]
  · exact h

/-- Only an ACTIVE station has a window that can pass. -/
theorem windowPassed_offLine {r : Rotation} (h : r.station ≠ .active) (start T : Nat) : windowPassed r start T = r := by
  unfold windowPassed
  split
  · exact if_neg fun hw => h hw.1
  · rfl

/-- The waits of window and watch that a glitch ends, in the order that the operand gives (R47, R95). -/
def State.endWaits (s : State) (rotationFirst : Bool) (start : Nat) : State :=
  if rotationFirst = true then (s.glitchWindow start).watchPassed start else (s.watchPassed start).glitchWindow start

/-- The rotation controller once the window has passed and the watch activity has ended, in that order or the other. -/
def windowAndWatchEnded (r : Rotation) (rotationFirst : Bool) (start T : Nat) : Rotation :=
  if rotationFirst = true then afterActivity { windowPassed r start T with answerWatch := false }
  else windowPassed (afterActivity { r with answerWatch := false }) start T

section
variable {s : State} {start : Nat}

/-- A watch that waited closes, before or after the window passes. -/
theorem State.endWaits_waited (rotationFirst : Bool) {w : Watched} (hw : s.watch.watched = some w)
    (h : watchWaited s.watch start s.now) :
    s.endWaits rotationFirst start =
      (s.closeWatch w .noAnswer).setRot (windowAndWatchEnded s.rot rotationFirst start s.now) := by
  unfold State.endWaits windowAndWatchEnded
  cases rotationFirst
  · simp only [Bool.false_eq_true, if_false]
    rw [State.watchPassed_waited hw h, State.glitchWindow_eq, State.closeWatch_eq, State.applyWatchResult_frame]
  · simp only [if_true]
    rw [State.glitchWindow_eq, State.watchPassed_waited (s := s.setRot (windowPassed s.rot start s.now)) hw h,
      State.closeWatch_from (s := s) rfl, State.closeWatch_eq, State.applyWatchResult_frame]
    rfl

/-- With a watch that did not wait, the window alone can pass. -/
theorem State.endWaits_notWaited (rotationFirst : Bool) (h : ¬ watchWaited s.watch start s.now) :
    s.endWaits rotationFirst start = s.setRot (windowPassed s.rot start s.now) := by
  unfold State.endWaits
  cases rotationFirst
  · simp only [Bool.false_eq_true, if_false]
    rw [State.watchPassed_notWaited h, State.glitchWindow_eq]
  · simp only [if_true]
    rw [State.glitchWindow_eq]
    exact State.watchPassed_notWaited h

end

/-- Outside ACTIVE no window passes, so the order does not matter. -/
theorem windowAndWatchEnded_offLine {r : Rotation} (h : r.station ≠ .active) (rotationFirst : Bool) (start T : Nat) :
    windowAndWatchEnded r rotationFirst start T = afterActivity { r with answerWatch := false } := by
  unfold windowAndWatchEnded
  rw [windowPassed_offLine h,
    windowPassed_offLine (afterActivity_station (r := { r with answerWatch := false }) h), ite_self]

section
variable {s : State} {T : Nat}

/-- The state in which a glitch found at `T` has released the receiver, and a truncation has left the assembler and the
rotation controller as given. -/
def atGlitch (s : State) (T : Nat) (a : Assembler) (r : Rotation) : State :=
  { s.runTo T with rx := rxAfter s .hunting, asm := a, rot := r }

theorem atGlitch_now (hT : s.now ≤ T) (a : Assembler) (r : Rotation) : (atGlitch s T a r).now = T := by
  rw [show (atGlitch s T a r).now = (s.runTo T).now from rfl, State.runTo_now]
  omega

/-- A start bit taken recessive, in time, is a glitch at its mid-bit. -/
theorem exec_startGlitch_taken (rotationFirst : Bool) (hr : s.lineRuns = true) (hrx : s.rx.cond = .receiving)
    (hbit : s.rx.bit 0 = true) (hT : s.now ≤ s.rx.startInstant + 9) :
    exec (.startGlitch rotationFirst) s = .next ((s.runTo (s.rx.startInstant + 9)).glitch rotationFirst) :=
  congrArg Host.Outcome.next (if_pos ⟨hr, hrx, by simp [Receiver.confirmed, hbit], hT⟩)

/-- After its truncation a glitch found at `T` ends the waits of window and watch. -/
theorem State.glitch_runTo (rotationFirst : Bool) (s : State) (T : Nat) :
    (s.runTo T).glitch rotationFirst =
      (atGlitch s T s.asm s.rot).glitchTruncation.endWaits rotationFirst s.rx.startInstant :=
  rfl

/-- A frame past its allowance is truncated, its damage taken by the rotation controller and then by the watch. -/
theorem State.glitchTruncation_cut (hT : s.now ≤ T) (hcut : s.asm.cond = .inFrame ∧ s.asm.dueInstant + 32 ≤ T) :
    (atGlitch s T s.asm s.rot).glitchTruncation =
      (atGlitch s T s.asm.damaged (damageTaken s.rot T)).watchDamage s.asm.startInstant := by
  have htruncated : (atGlitch s T s.asm s.rot).glitchTruncation = (atGlitch s T s.asm s.rot).truncate := by
    unfold State.glitchTruncation
    rw [atGlitch_now hT]
    exact if_pos hcut
  rw [htruncated, ← Rotation.onDamage_eq]
  unfold State.truncate State.damageNotice
  rw [State.setAsm_now, atGlitch_now hT]
  rfl

/-- No other frame is. -/
theorem State.glitchTruncation_whole (hT : s.now ≤ T) (hcut : ¬ (s.asm.cond = .inFrame ∧ s.asm.dueInstant + 32 ≤ T)) :
    (atGlitch s T s.asm s.rot).glitchTruncation = atGlitch s T s.asm s.rot := by
  unfold State.glitchTruncation
  rw [atGlitch_now hT]
  exact if_neg hcut

/-- A watch closed at the glitch, with the result applied as in the state before it. -/
theorem closeWatch_atGlitch (s : State) (T : Nat) (a : Assembler) (r : Rotation) (w : Watched) :
    (atGlitch s T a r).closeWatch w .noAnswer =
      { (s.runTo T).applyWatchResult w.entry .noAnswer with
        rx := rxAfter s .hunting, asm := a, watch := .shut,
        rot := afterActivity { r with answerWatch := false } } :=
  State.closeWatch_from (s := s.runTo T) rfl w .noAnswer

end

/-- A watch closed by the damage leaves nothing to wait, and no window to pass. -/
theorem State.endWaits_takes {s : State} {start first : Nat} (rotationFirst : Bool) {w : Watched}
    (hw : s.watch.watched = some w) (h : watchTakes s.watch first) (hoff : s.rot.station ≠ .active) :
    (s.watchDamage first).endWaits rotationFirst start =
      (s.closeWatch w .noAnswer).setRot (windowAndWatchEnded s.rot rotationFirst start s.now) := by
  have hrot : (s.closeWatch w .noAnswer).rot = afterActivity { s.rot with answerWatch := false } := by
    rw [State.closeWatch_eq]
  rw [State.watchDamage_takes hw h, State.endWaits_notWaited, hrot, windowAndWatchEnded_offLine hoff,
    windowPassed_offLine (afterActivity_station (r := { s.rot with answerWatch := false }) hoff)]
  rw [State.closeWatch_eq]
  rintro ⟨x, e, hx, -⟩
  cases hx

/-- Settles O7: the truncation, and then the waits that the glitch ends. -/
theorem startGlitchResult : Obligations.StartGlitchResult := by
  rintro rotationFirst s T cut a r hrst hvalid hrx hbit rfl hT hcut hyes hno
  rw [exec_startGlitch_taken rotationFirst (State.lineRuns_of hrst hvalid) hrx hbit hT, State.glitch_runTo]
  generalize s.rx.startInstant + 9 = T at *
  have hnow := atGlitch_now hT a r
  have htaken (hc : cut) :
      (atGlitch s T s.asm s.rot).glitchTruncation = (atGlitch s T a r).watchDamage s.asm.startInstant := by
    obtain ⟨rfl, rfl⟩ := hyes hc
    exact State.glitchTruncation_cut hT (hcut.1 hc)
  have hkept (h : ¬ (cut ∧ watchTakes s.watch s.asm.startInstant)) :
      (atGlitch s T s.asm s.rot).glitchTruncation = atGlitch s T a r := by
    by_cases hc : cut
    · rw [htaken hc]
      exact State.watchDamage_notTakes fun g => h ⟨hc, g⟩
    · obtain ⟨rfl, rfl⟩ := hno hc
      exact State.glitchTruncation_whole hT (mt hcut.2 hc)
  refine ⟨fun w hw hclosed => congrArg Host.Outcome.next ?_, fun h hwait => congrArg Host.Outcome.next ?_⟩
  · have hended : (atGlitch s T s.asm s.rot).glitchTruncation.endWaits rotationFirst s.rx.startInstant =
        ((atGlitch s T a r).closeWatch w .noAnswer).setRot
          (windowAndWatchEnded r rotationFirst s.rx.startInstant (atGlitch s T a r).now) := by
      by_cases h : cut ∧ watchTakes s.watch s.asm.startInstant
      · obtain ⟨hc, htakes⟩ := h
        rw [htaken hc]
        exact State.endWaits_takes rotationFirst hw htakes ((hyes hc).1 ▸ damageTaken_station s.rot T)
      · rw [hkept h]
        exact State.endWaits_waited rotationFirst hw (hnow.symm ▸ hclosed.resolve_left h)
    rw [hended, hnow, closeWatch_atGlitch]
    rfl
  · rw [hkept h, State.endWaits_notWaited rotationFirst (by rw [hnow]; exact hwait), hnow]
    rfl

end Sys2Proof.Machine
end

section
/-! Characters received into a frame: the header checks, a character stored, a character that is damage, a truncation,
and the settle of a DISCARDING assembler. -/

namespace Sys2Proof.Machine

open Sys2Proof

/-! ## The header checks (R23) -/

/-- The values of bits 7:5 that name a kind. -/
theorem kindOf_isSome_iff (b : Byte) :
    (kindOf b).isSome = true ↔ b.toNat / 32 = 1 ∨ b.toNat / 32 = 2 ∨ b.toNat / 32 = 3 := by
  unfold kindOf
  split <;> simp_all

theorem seqField_eq_zero_iff (b : Byte) : seqField b = 0 ↔ b.toNat / 32 = 0 := by
  have hb := b.isLt
  have hz : (0 : Seq).toNat = 0 := rfl
  rw [seqField, ← BitVec.toNat_inj, BitVec.toNat_ofNat, hz]
  omega

theorem checkChar0_iff (h : Nat) (b : Byte) :
    checkChar0 h b = true ↔
      (b.toNat / 32 = 1 ∨ b.toNat / 32 = 2 ∨ b.toNat / 32 = 3) ∧ b.toNat % 32 ≠ 31 ∧ b.toNat % 32 ≤ h := by
  rw [checkChar0, Bool.and_eq_true, kindOf_isSome_iff, decide_eq_true_eq]
  rfl

theorem checkChar1_cast_iff (b : Byte) : checkChar1 .cast b = true ↔ b.toNat % 32 = 31 ∧ b.toNat / 32 = 0 := by
  rw [checkChar1, decide_eq_true_eq, seqField_eq_zero_iff]
  rfl

theorem checkChar2_cast_iff (b : Byte) :
    checkChar2 .cast b = true ↔ b.toNat < 128 ∧ 1 ≤ b.toNat % 128 ∧ b.toNat % 128 ≤ 120 := by
  rw [checkChar2, Bool.and_eq_true, decide_eq_true_eq]
  simp [freshField, lengthField]

theorem Assembler.charOk_char1 {a : Assembler} (h : a.count = 1) (b : Byte) : a.charOk b = checkChar1 a.kind b :=
  if_pos h

theorem Assembler.charOk_char2 {a : Assembler} (h : a.count = 2) (b : Byte) : a.charOk b = checkChar2 a.kind b := by
  simp [Assembler.charOk, h]

/-- From char 3 on a character has no field to check. -/
theorem Assembler.charOk_later {a : Assembler} (h : 3 ≤ a.count) (b : Byte) : a.charOk b = true := by
  rw [Assembler.charOk, if_neg (by omega), if_neg (by omega)]

/-- Settles O12, row by row of the table of R23. -/
theorem headerChecksFollowTheTable : Obligations.HeaderChecksFollowTheTable :=
  ⟨checkChar0_iff, fun _ => decide_eq_true_iff, checkChar1_cast_iff, fun _ => rfl, fun _ => decide_eq_true_iff,
    checkChar2_cast_iff, fun _ => decide_eq_true_iff,
    fun _ b => ⟨(Assembler.charOk_char1 · b), (Assembler.charOk_char2 · b), (Assembler.charOk_later · b)⟩⟩

/-! ## A character in an open frame (R23, R24, R26) -/

section
variable {a : Assembler} {own h t : Nat} {c : RxChar}

/-- The running CRC takes the character unless it is one of the two that the expected count leaves for the CRC. -/
theorem Assembler.crcWith_eq (a : Assembler) (b : Byte) :
    a.crcWith b =
      if (a.expectedWith b).all (fun n => decide (a.count + 2 < n)) then crcByte a.crc b else a.crc := by
  unfold Assembler.crcWith
  cases a.expectedWith b <;> simp

/-- From char 3 on the expected count stands. -/
theorem Assembler.expectedWith_later {b : Byte} (hcount : 3 ≤ a.count) : a.expectedWith b = a.expected :=
  if_neg (by omega)

/-- A character that passes its checks is taken, and the last one ends the frame. -/
theorem Assembler.deliver_passes (ha : a.cond = .inFrame) (hf : c.faulty = false) (he : c.edge = false)
    (hok : a.charOk c.data = true) :
    a.deliver own h t c =
      if a.expectedWith c.data = some (a.count + 1) then (a.takeChar c).finish own t else (a.takeChar c, .quiet) := by
  simp only [Assembler.deliver, ha, Assembler.continueFrame, hf, he, hok, and_self, if_true]
  rfl

/-- A character that fails a check is damage of the frame it falls in. -/
theorem Assembler.deliver_fails (ha : a.cond = .inFrame)
    (hbad : c.faulty = true ∨ c.edge = true ∨ a.charOk c.data = false) :
    a.deliver own h t c = (a.damaged, .damage a.startInstant) := by
  simp only [Assembler.deliver, ha, Assembler.continueFrame]
  exact if_neg (by rcases hbad with hb | hb | hb <;> simp [hb])

/-- The two CRC characters, once the last of them is taken, against the CRC of those before. -/
theorem Assembler.crcMatches_takeChar_iff (hlast : a.expectedWith c.data = some (a.count + 1)) :
    (a.takeChar c).crcMatches = true ↔
      ((a.buffer ++ [c.data]).getD (a.count - 1) 0).toNat * 256 + ((a.buffer ++ [c.data]).getD a.count 0).toNat =
        a.crc.toNat := by
  have hcrc : (a.takeChar c).crc = a.crc := by
    rw [Assembler.takeChar, Assembler.crcWith_eq, hlast]; simp
  rw [Assembler.crcMatches, decide_eq_true_eq, hcrc]
  rfl

/-! ## A character that opens no frame (R22) -/

/-- A character in IDLE that is faulty or carries edge bit 0 is damage, and is not taken. -/
theorem Assembler.deliver_notChar0 (ha : a.cond = .idle) (hbad : c.faulty = true ∨ c.edge = false) :
    a.deliver own h t c = (a.damaged, .damage c.start) := by
  simp only [Assembler.deliver, ha, Assembler.openFrame]
  exact if_neg (by rcases hbad with hb | hb <;> simp [hb])

/-- A char 0 that fails its checks is taken and found damaged. -/
theorem Assembler.deliver_badChar0 (ha : a.cond = .idle) (hf : c.faulty = false) (he : c.edge = true)
    (hbad : checkChar0 h c.data = false) : a.deliver own h t c = ((a.takeChar0 c).damaged, .damage c.start) := by
  simp only [Assembler.deliver, ha, Assembler.openFrame, hf, he, hbad, and_self, if_true]
  cases kindOf c.data <;> rfl

end

/-! ## The notice of a character delivered -/

section
variable {s : State} (o : EndOrder)

/-- Unless the assembler is DISCARDING, a character has the effect of its notice alone. -/
theorem State.deliver_notice {c : RxChar} {a : Assembler} {n : AsmNotice} (hc : s.asm.cond ≠ .discarding)
    (h : s.asm.deliver s.straps.own s.straps.highest s.now c = (a, n)) :
    s.deliver o c = (s.setAsm a).notice o n := by
  unfold State.deliver
  rw [h]
  exact if_neg hc

/-- A character that the assembler takes, in a state that `takesCharacter` describes. -/
theorem exec_characterDelivered_takes (h : takesCharacter s) :
    exec (.characterDelivered o.rotationFirst o.offerFirst) s = .next ((atStop s).deliver o s.rx.char) := by
  obtain ⟨hrst, hvalid, hrx, hc, hd⟩ := h
  rw [exec_characterDelivered_taken o (State.lineRuns_of hrst hvalid) hrx hc, if_neg hd]

end

/-- Settles O11: the character is taken and gives no notice. -/
theorem characterTakenIntoFrame : Obligations.CharacterTakenIntoFrame := by
  rintro o s ex htakes ha hf he hok rfl hmore
  have hdeliver (own h t : Nat) : s.asm.deliver own h t s.rx.char = (s.asm.takeChar s.rx.char, .quiet) :=
    (Assembler.deliver_passes (c := s.rx.char) ha hf he hok).trans (if_neg hmore)
  rw [exec_characterDelivered_takes o htakes,
    State.deliver_notice o (s := atStop s) (by simp [atStop, ha]) (hdeliver _ _ _)]
  simp only [State.notice, Assembler.takeChar, Assembler.crcWith_eq, atStop, hf, Bool.false_eq_true, if_false]
  rfl

/-! ## Damage (R27, R50) -/

/-- What `damageAt` describes is what the assembler does. -/
theorem damageAt_deliver {s : State} {start : Nat} {a : Assembler} (own t : Nat) (h : damageAt s start a) :
    s.asm.cond ≠ .discarding ∧ s.asm.deliver own s.straps.highest t s.rx.char = (a, .damage start) := by
  rcases h with ⟨ha, hbad, rfl, rfl⟩ | ⟨ha, hf, he, hbad, rfl, rfl⟩ | ⟨ha, hbad, rfl, rfl⟩ |
    ⟨ha, hf, he, hcount, hlast, hcrc, rfl, rfl⟩
  · exact ⟨by simp [ha], Assembler.deliver_notChar0 (c := s.rx.char) ha hbad⟩
  · exact ⟨by simp [ha], Assembler.deliver_badChar0 (c := s.rx.char) ha hf he hbad⟩
  · exact ⟨by simp [ha], Assembler.deliver_fails (c := s.rx.char) ha hbad⟩
  · have hlast' : s.asm.expectedWith s.rx.char.data = some (s.asm.count + 1) :=
      (Assembler.expectedWith_later hcount).trans hlast
    refine ⟨by simp [ha], ?_⟩
    rw [Assembler.deliver_passes (c := s.rx.char) ha hf he (Assembler.charOk_later hcount _), if_pos hlast',
      Assembler.finish, if_neg (mt (Assembler.crcMatches_takeChar_iff hlast').1 hcrc)]
    rfl

section
variable (s : State) (start : Nat)

/-- A damage notice at the rotation controller and at the watch. -/
theorem State.damageNotice_eq :
    s.damageNotice start = (s.setRot (damageTaken s.rot s.now)).watchDamage start := by
  rw [← Rotation.onDamage_eq]; rfl

/-- A watch with no part in the frame leaves the notice to the rotation controller. -/
theorem State.damageNotice_notTakes (h : ¬ watchTakes s.watch start) :
    s.damageNotice start = s.setRot (damageTaken s.rot s.now) := by
  rw [State.damageNotice_eq]
  exact State.watchDamage_notTakes (s := s.setRot (damageTaken s.rot s.now)) h

/-- A watch that has a part in it closes. -/
theorem State.damageNotice_takes (h : watchTakes s.watch start) : (s.damageNotice start).watch = .shut := by
  obtain ⟨w, hw⟩ : ∃ w, s.watch.watched = some w := by
    rcases h with ⟨x, e, hx, -⟩ | ⟨x, e, held, hx, -⟩ <;> exact ⟨x, by rw [hx]; rfl⟩
  rw [State.damageNotice_eq, State.watchDamage_takes (s := s.setRot (damageTaken s.rot s.now)) hw h,
    State.closeWatch_frame]

end

/-- Settles O9: the assembler's damage (`damageAt_deliver`) and its notice at the rotation controller. -/
theorem characterFoundDamaged : Obligations.CharacterFoundDamaged := by
  intro o s start a htakes hdamage
  obtain ⟨hcond, hdeliver⟩ := damageAt_deliver s.straps.own (atStop s).now hdamage
  refine ⟨_, (exec_characterDelivered_takes o htakes).trans
    (congrArg _ (State.deliver_notice o (s := atStop s) hcond hdeliver)), ?_⟩
  simp only [State.notice]
  have htouched := ((atStop s).setAsm a).damageNotice_touched start
  refine ⟨by rw [htouched]; rfl, by rw [htouched]; rfl, fun hw => ?_⟩
  rw [State.damageNotice_notTakes ((atStop s).setAsm a) start hw, ← atStop_now]
  rfl

/-! ## Truncation and settle (R25, R28) -/

/-- Samples until the quiet timer shows `n` bring it there, and no further. -/
theorem State.quiet_advance_untilQuiet {s : State} {n : Nat} (hr : s.lineRuns = true) (hn : n ≤ 65535)
    (h : s.quiet.elapsed ≤ n) : (s.advance (s.untilQuiet n)).quiet.elapsed = n := by
  simp only [State.advance_quiet, if_pos hr, QuietTimer.run, State.untilQuiet, Config.quietMax]
  split <;> omega

/-- Settles O18: the truncation is a damage notice at its instant, and the settle comes with the first sample at which
the quiet timer shows 4 T (`State.quiet_advance_iff`). -/
theorem truncationAndSettle : Obligations.TruncationAndSettle := by
  refine ⟨fun s hrst hvalid ha hrx => ?_, fun s hrst hvalid ha => ?_⟩
  · have hrun : exec .frameTruncation s =
        .next (((s.runTo (s.asm.dueInstant + 32)).setAsm s.asm.damaged).damageNotice s.asm.startInstant) :=
      congrArg Host.Outcome.next (if_pos ⟨State.lineRuns_of hrst hvalid, ha, hrx⟩)
    have hasm := congrArg State.asm ((s.runTo (s.asm.dueInstant + 32)).truncate_touched)
    refine ⟨_, hrun, hasm, fun hw => State.damageNotice_takes _ _ hw, fun hw => ?_⟩
    rw [State.damageNotice_notTakes ((s.runTo (s.asm.dueInstant + 32)).setAsm s.asm.damaged) _ hw, ← State.runTo_now]
    rfl
  · have hr := State.lineRuns_of hrst hvalid
    refine ⟨_, congrArg Host.Outcome.next (if_pos ⟨hr, ha⟩), rfl, ?_, State.quiet_advance_untilQuiet hr (by decide),
      fun k hk => ?_⟩
    · exact (State.quiet_advance_iff s 64 _ hr (by decide)).2 le_rfl
    · exact not_le.1 fun hge => absurd ((State.quiet_advance_iff s 64 k hr (by decide)).1 hge) (not_le.2 hk)

end Sys2Proof.Machine
end

section
/-! The end of a good frame that the watch does not hold: CAST frames, and DATA frames not taken by the answer unit. -/

namespace Sys2Proof.Machine

open Sys2Proof

/-! ## The last character (R26, R29) -/

section
variable {a : Assembler} {own h t : Nat} {c : RxChar} {f : Frame}

/-- A character that opens a frame, or fails to, gives no good frame. -/
theorem Assembler.openFrame_notGood : (a.openFrame h c).2 ≠ .good f := by
  unfold Assembler.openFrame
  split
  · split
    · split <;> simp
    · simp
  · simp

/-- A frame whose CRC matches leaves the assembler IDLE, with no count and no expected count. -/
theorem Assembler.finish_good (hgood : (a.finish own t).2 = .good f) :
    a.finish own t = ({ a with cond := .idle, count := 0, expected := none }, .good f) := by
  unfold Assembler.finish at *
  split at hgood
  · rename_i hcrc
    rw [if_pos hcrc]
    exact Prod.ext rfl hgood
  · cases hgood

/-- Only the last character of an open frame gives a good frame. -/
theorem Assembler.deliver_good (hgood : (a.deliver own h t c).2 = .good f) :
    a.cond = .inFrame ∧
      a.deliver own h t c = ({ a.takeChar c with cond := .idle, count := 0, expected := none }, .good f) := by
  cases ha : a.cond with
  | idle =>
    rw [Assembler.deliver, ha] at hgood
    exact absurd hgood Assembler.openFrame_notGood
  | discarding =>
    rw [Assembler.deliver, ha] at hgood
    cases hgood
  | inFrame =>
    refine ⟨rfl, ?_⟩
    by_cases hbad : c.faulty = true ∨ c.edge = true ∨ a.charOk c.data = false
    · rw [Assembler.deliver_fails ha hbad] at hgood
      cases hgood
    · simp only [not_or, Bool.not_eq_true, Bool.not_eq_false] at hbad
      obtain ⟨hf, he, hok⟩ := hbad
      rw [Assembler.deliver_passes ha hf he hok] at hgood ⊢
      split at hgood
      · rename_i hlast
        rw [if_pos hlast, Assembler.finish_good hgood]
      · cases hgood

end

/-- The last character of a good frame hands the frame to the blocks that act on it. -/
theorem exec_characterDelivered_good (o : EndOrder) {s : State} {f : Frame} (h : endsGoodFrame s f) :
    exec (.characterDelivered o.rotationFirst o.offerFirst) s = .next ((atFrameEnd s).goodFrame o f) := by
  obtain ⟨htakes, hf, hgood⟩ := h
  rw [← atStop_now] at hgood
  obtain ⟨ha, hdeliver⟩ := Assembler.deliver_good hgood
  rw [exec_characterDelivered_takes o htakes, State.deliver_notice o (s := atStop s) (by simp [atStop, ha]) hdeliver]
  simp only [State.notice, atFrameEnd, atStop, hf, Bool.false_eq_true, if_false]
  rfl

/-! ## The blocks that act on a frame, in every order (R30, R61, R96, R136) -/

section
variable {s : State} {f : Frame}

/-- A watch that does not hold the frame stays (R96). -/
theorem State.watchFrameEnd_notHeld (h : ¬ holdsFrame s.watch f) : s.watchFrameEnd f = s := by
  unfold State.watchFrameEnd
  cases hw : s.watch with
  | holding x e held => exact if_neg fun heq => h ⟨x, e, held, hw, heq.symm⟩
  | opened x e => rfl
  | noted x => rfl
  | shut => rfl

/-- With a watch that does not hold the frame, the rotation controller and the offer are left, and where their order
does not matter the four orders agree. -/
theorem State.goodFrame_notHeld (o : EndOrder) (hw : ¬ holdsFrame s.watch f)
    (hcomm : (s.rotateFrame f).offerFrame f = (s.offerFrame f).rotateFrame f) :
    s.goodFrame o f = (s.offerFrame f).rotateFrame f := by
  have hrotated : (s.rotateFrame f).watchFrameEnd f = s.rotateFrame f := State.watchFrameEnd_notHeld hw
  have hoffered : (s.offerFrame f).watchFrameEnd f = s.offerFrame f :=
    State.watchFrameEnd_notHeld (by rw [State.offerFrame_frame]; exact hw)
  have hboth : ((s.offerFrame f).rotateFrame f).watchFrameEnd f = (s.offerFrame f).rotateFrame f :=
    State.watchFrameEnd_notHeld (by rw [State.offerFrame_frame]; exact hw)
  obtain ⟨rotationFirst, offerFirst⟩ := o
  cases rotationFirst <;> cases offerFirst <;>
    simp only [State.goodFrame, if_true, Bool.false_eq_true, if_false, State.watchFrameEnd_notHeld hw, hrotated,
      hoffered, hcomm, hboth]

/-- A frame that the offer leaves alone, before and after the rotation controller has it, anchors and nothing else. -/
theorem State.goodFrame_notOffered (o : EndOrder) (hw : ¬ holdsFrame s.watch f) (h : s.offerFrame f = s)
    (hrotated : (s.rotateFrame f).offerFrame f = s.rotateFrame f) : s.goodFrame o f = s.rotateFrame f := by
  rw [State.goodFrame_notHeld o hw (by rw [h, hrotated]), h]

/-! ## The offer -/

/-- An own frame and a same-number frame are not offered (R31, R32). -/
theorem State.offerFrame_ownOrSame (h : f.own = true ∨ f.sameNumber = true) : s.offerFrame f = s := if_pos h

/-- A CAST from another station goes to the receive path (R143). -/
theorem State.offerFrame_cast (hk : f.kind = .cast) (ho : f.own = false) (hs : f.sameNumber = false) :
    s.offerFrame f = s.receiveCast f := by
  simp [State.offerFrame, hk, ho, hs]

/-- A DATA to another station, and one met outside LISTEN and ACTIVE, is left alone (R30, R85). -/
theorem State.offerFrame_data_notTaken (hk : f.kind = .data) (h : f.dest ≠ s.straps.own ∨ s.rot.onLine = false) :
    s.offerFrame f = s := by
  simp only [State.offerFrame, hk, State.decideAnswer]
  rcases h with h | h <;> simp [h]

theorem State.hasRoom_iff (s : State) (f : Frame) : s.hasRoom (Config.blocksFor f.length) = true ↔ roomFor s f := by
  simp only [State.hasRoom, decide_eq_true_eq]
  rfl

/-- The receive path at a CAST. -/
theorem State.receiveCast_taken (s : State) (f : Frame) : castTaken s (s.receiveCast f) f := by
  unfold State.receiveCast
  rw [castTaken, ← State.hasRoom_iff]
  refine ⟨fun h => ?_, fun h => ?_⟩
  · rw [if_pos h]; rfl
  · rw [if_neg h]; rfl

/-- The receive path does not read the rotation controller. -/
theorem State.receiveCast_setRot (s : State) (r : Rotation) (f : Frame) :
    (s.setRot r).receiveCast f = (s.receiveCast f).setRot r := by
  by_cases h : s.hasRoom (Config.blocksFor f.length) = true
  · rw [State.receiveCast, State.receiveCast, if_pos h]; exact if_pos h
  · rw [State.receiveCast, State.receiveCast, if_neg h]; exact if_neg h

theorem State.receiveCast_rot (s : State) (f : Frame) : (s.receiveCast f).rot = s.rot := by
  unfold State.receiveCast
  split <;> rfl

end

/-! ## The rotation controller at a good CAST or DATA (R43, R44, R58) -/

section
variable {r : Rotation} {f : Frame} (h : Nat)

theorem Rotation.onLine_iff (r : Rotation) : r.onLine = true ↔ r.station = .listen ∨ r.station = .active := by
  simp [Rotation.onLine]

theorem Rotation.onLine_false (hs : r.station = .withdrawn ∨ r.station = .strapFault) : r.onLine = false := by
  rcases hs with hs | hs <;> simp [Rotation.onLine, hs]

theorem Rotation.onGoodFrame_offLine (hs : r.onLine = false) : r.onGoodFrame h f = r := if_neg (by simp [hs])

theorem Rotation.onGoodFrame_cast (hk : f.kind = .cast) : r.onGoodFrame h f = anchoredByCast r h f := by
  simp only [Rotation.onGoodFrame, anchoredByCast, hk, Rotation.onLine_iff]
  rfl

theorem Rotation.onGoodFrame_data (hk : f.kind = .data) : r.onGoodFrame h f = anchoredByData r h f := by
  simp only [Rotation.onGoodFrame, anchoredByData, hk, Rotation.onLine_iff]
  rfl

end

/-- Settles O13: the rotation controller and the receive path act apart, so every order gives both effects. -/
theorem goodCastEnd : Obligations.GoodCastEnd := by
  intro o s f hends hk hw
  have hrot (u : State) : u.rotateFrame f = u.setRot (anchoredByCast u.rot u.straps.highest f) := by
    rw [← Rotation.onGoodFrame_cast _ hk]; rfl
  have hexec := exec_characterDelivered_good o hends
  by_cases hoffer : f.own = false ∧ f.sameNumber = false
  · obtain ⟨ho, hs⟩ := hoffer
    have hcast (u : State) : u.offerFrame f = u.receiveCast f := State.offerFrame_cast hk ho hs
    have hrotated (u : State) : (u.receiveCast f).rotateFrame f = (u.rotateFrame f).receiveCast f := by
      have hstraps : (u.receiveCast f).straps = u.straps := by rw [← hcast, State.offerFrame_frame]
      rw [hrot, hrot, State.receiveCast_rot, State.receiveCast_setRot, hstraps]
    refine ⟨(atFrameEnd s).receiveCast f, ?_, fun h => ?_, fun _ _ => State.receiveCast_taken ..⟩
    · rw [hexec, State.goodFrame_notHeld (s := atFrameEnd s) o hw (by rw [hcast, hcast, hrotated]), hcast, hrotated,
        hrot, State.receiveCast_setRot]
      rfl
    · rcases h with h | h
      · rw [ho] at h; cases h
      · rw [hs] at h; cases h
  · have hnot : f.own = true ∨ f.sameNumber = true := by
      rw [← Bool.not_eq_true, ← Bool.not_eq_true, ← not_or] at hoffer
      exact not_not.1 hoffer
    refine ⟨atFrameEnd s, ?_, fun _ => rfl, fun ho hs => absurd ⟨ho, hs⟩ hoffer⟩
    rw [hexec, State.goodFrame_notOffered (s := atFrameEnd s) o hw (State.offerFrame_ownOrSame hnot)
      (State.offerFrame_ownOrSame hnot), hrot]
    rfl

/-- Settles O14: in none of these cases does the offer touch the frame, before or after the rotation controller. -/
theorem goodDataEndAnchorsAlone : Obligations.GoodDataEndAnchorsAlone := by
  intro o s f hends hk hw hleft
  have hrotated : (atFrameEnd s).rotateFrame f =
      { atFrameEnd s with rot := anchoredByData s.rot s.straps.highest f } := by
    rw [← Rotation.onGoodFrame_data _ hk]; rfl
  have hnotOffered (u : State) (hown : u.straps = s.straps) (hrot : s.rot.onLine = false → u.rot.onLine = false) :
      u.offerFrame f = u := by
    rcases hleft with h | h | h | h
    · exact State.offerFrame_ownOrSame (.inl h)
    · exact State.offerFrame_ownOrSame (.inr h)
    · exact State.offerFrame_data_notTaken hk (.inl (hown ▸ h))
    · exact State.offerFrame_data_notTaken hk (.inr (hrot (Rotation.onLine_false h)))
  have hoff (h : s.rot.onLine = false) : ((atFrameEnd s).rotateFrame f).rot.onLine = false := by
    rw [← h]
    exact congrArg Rotation.onLine (Rotation.onGoodFrame_offLine _ h)
  rw [exec_characterDelivered_good o hends, State.goodFrame_notOffered (s := atFrameEnd s) o hw
    (hnotOffered _ rfl fun h => h) (hnotOffered _ rfl hoff), hrotated]

end Sys2Proof.Machine
end

section
/-! The last character sent: what the emitted report does to the rotation controller and to the frame's owner. -/

namespace Sys2Proof.Machine

open Sys2Proof

/-! ## An emitted report (R56, R91, R93, R111, R112) -/

section
variable (s : State)

theorem Rotation.onEmitted_cast (r : Rotation) :
    r.onEmitted .cast = afterActivity { r with faultCount := r.faultCount - 1, ownFrame := false } :=
  Rotation.settle_eq _

/-- An emitted ANSWER ends the pending answer that was being sent (R91). -/
theorem State.emittedReport_answer {p : PendingAnswer} (hp : s.pend = some p) (hphase : p.phase = .emitting) :
    s.emittedReport .answer =
      (s.setPend none).setRot (afterActivity { s.rot with faultCount := s.rot.faultCount - 1, answer := false }) := by
  simp only [State.emittedReport, State.endEmittedAnswer, State.setRot_pend, hp, hphase, if_true, State.endAnswer,
    Rotation.answerEnded_eq]
  rfl

/-- An emitted ANSWER that is superseded ends none (R89). -/
theorem State.emittedReport_superseded (hp : ∀ p, s.pend = some p → p.phase = .due) :
    s.emittedReport .answer = s.setRot { s.rot with faultCount := s.rot.faultCount - 1 } := by
  simp only [State.emittedReport, State.endEmittedAnswer, State.setRot_pend]
  split
  · rename_i p hpend
    rw [if_neg (by simp [hp p hpend])]
    rfl
  · rfl

/-- Whatever becomes of the frame's owner, the contents of the blocks stay (R130). -/
theorem State.emittedReport_cells (src : FrameSource) : (s.emittedReport src).pool.cells = s.pool.cells := by
  cases src with
  | none => rfl
  | answer => simp only [State.emittedReport]; rw [State.endEmittedAnswer_frame]; rfl
  | transmit ref kind =>
    cases kind with
    | cast => exact State.conclude_cells ..
    | data => rfl
    | answer => rfl

end

/-! ## The compare that sends the last character (R12, R35) -/

/-- The state at the mid-bit of the frame's last stop cell, the emitter done, to which the emitted report comes. -/
def atLastSent (s : State) : State :=
  let v := (atCompare s).runTo ((atCompare s).driver.charStart + 169)
  (v.setDriver { v.driver with sent := true, next := none }).setEm Emitter.init

section
variable {s : State}

/-- The last stop cell compared in agreement is an emitted report. -/
theorem exec_characterSent_last {tap : Tap} (hd : (atCompare s).driver.cond = .driving)
    (hs : (atCompare s).driver.sent = false) (hem : s.em.cond = .emitting) (htap : majority tap = .recessive)
    (hlast : s.em.count ≤ s.em.index + 1) :
    exec (.characterSent tap) s = .next ((atLastSent s).emittedReport s.em.source) := by
  rw [exec_characterSent_agrees hd hs hem htap]
  unfold State.charSent atLastSent
  rcases atCompare_cases (s := s) with hc | hc <;> rw [hc] <;> simp [hlast]

/-- The last character is followed by none, so the driver goes on with it to the end of its stop cell. -/
theorem atLastSent_driver (hs : (atCompare s).driver.sent = false) (hlast : s.em.count ≤ s.em.index + 1) :
    (atLastSent s).driver = { (atCompare s).driver with sent := true, next := none } := by
  obtain ⟨hdriver, -⟩ := State.advance_undisturbed (s := atCompare s)
    (d := (atCompare s).driver.charStart + 169 - (atCompare s).now) (by simp [hs])
    (by rw [atCompare_em_index, atCompare_em_count]; omega)
  simp only [atLastSent, State.runTo, hdriver]
  rfl

/-- What the report finds as it was: the run up to it moves only the clock, the timer, the driver and the emitter. -/
theorem atLastSent_frame (s : State) :
    atLastSent s = { s with
      now := (atLastSent s).now, quiet := (atLastSent s).quiet, driver := (atLastSent s).driver,
      em := Emitter.init } := by
  unfold atLastSent
  rcases atCompare_cases (s := s) with hc | hc <;> rw [hc] <;> rfl

/-- The instant of the report is the mid-bit of the stop cell, cell 10, or this instant when it is past. -/
theorem atLastSent_now (hd : (atCompare s).driver.cond = .driving) :
    (atLastSent s).now = max s.now ((atCompare s).driver.charStart + 169) :=
  atMismatch_now 10 hd

end

/-- Settles O20: the report's instant, what it leaves (`State.emittedReport_touched`), and its effect by the frame's
source. -/
theorem lastCharacterSentEmitsTheFrame : Obligations.LastCharacterSentEmitsTheFrame := by
  rintro tap s v rfl hd hs hem htap hlast
  have hexec := exec_characterSent_last hd hs hem htap hlast
  have hdriver := atLastSent_driver hs hlast
  have hnow := atLastSent_now hd
  have hframe := atLastSent_frame s
  generalize atLastSent s = u at *
  have htouched := u.emittedReport_touched s.em.source
  have hrot : u.rot = s.rot := by rw [hframe]
  have hpend : u.pend = s.pend := by rw [hframe]
  have hwatch : u.watch = s.watch := by rw [hframe]
  have htxq : u.txq = s.txq := by rw [hframe]
  have hcompq : u.compq = s.compq := by rw [hframe]
  have hpool : u.pool = s.pool := by rw [hframe]
  have hpeers : u.peers = s.peers := by rw [hframe]
  refine ⟨_, hexec, by rw [htouched, ← hnow], by rw [htouched, hframe], by rw [htouched, ← hdriver],
    by rw [htouched, hframe], by rw [htouched, hframe], by rw [htouched, hframe], by rw [htouched, hframe],
    by rw [htouched, hframe], fun a => by rw [State.emittedReport_cells, hpool], ?_⟩
  simp only [← hrot, ← hpend, ← hwatch, ← htxq, ← hcompq, ← hpool, ← hpeers]
  refine ⟨fun ref e hsrc he hcast => ?_, fun ref w hsrc hnoted => ?_, fun p hsrc hp hphase => ?_, fun hsrc hp => ?_⟩
  · obtain ⟨htxq', hcompq', hpool', hpeers'⟩ :=
      State.conclude_found (s := u.setRot (u.rot.onEmitted .cast)) he .sent false
    rw [hsrc, State.emittedReport, ← Rotation.onEmitted_cast]
    exact ⟨by rw [State.conclude_frame]; rfl, htxq', hpool', hcompq', hpeers'.trans (if_pos hcast),
      by rw [State.conclude_frame]; rfl, by rw [State.conclude_frame]; rfl⟩
  · rw [hsrc]
    refine ⟨rfl, rfl, ?_, rfl, rfl, rfl, rfl⟩
    exact congrArg (Watch.onEmitted · u.now) hnoted
  · rw [hsrc, State.emittedReport_answer _ hp hphase]
    exact ⟨rfl, rfl, rfl, rfl, rfl, rfl, rfl⟩
  · rw [hsrc, State.emittedReport_superseded _ hp]
    exact ⟨rfl, rfl, rfl, rfl, rfl, rfl, rfl⟩

end Sys2Proof.Machine
end

section
/-! The station's own turn: the slot that comes next, the offer, a request that the emitter takes, and one that it
refuses. -/

namespace Sys2Proof.Machine

open Sys2Proof

/-! ## The slot that comes next (R39) -/

section
variable {s : State} {i : Nat}

/-- The slot taken by SLOT_START is the one that comes next. -/
theorem slotComes_upcoming (h : slotComes s i) : s.rot.upcomingSlot s.now = i := by
  obtain ⟨hnext, hnow, hbelow⟩ := h
  have hceil : (s.now - s.rot.baseTime + 383) / 384 ≤ i := by omega
  simp only [Rotation.upcomingSlot, Config.slotTime]
  cases i with
  | zero => omega
  | succ j =>
    rcases hbelow j (by omega) with h | h
    · omega
    · omega

/-- The state at the start of slot `i`, the slot taken. -/
def atSlot (s : State) (i : Nat) : State :=
  { s.runTo (s.rot.baseTime + 384 * i) with rot := { s.rot with slotIndex := i, nextSlot := i + 1 } }

/-- A slot of this station makes the own-turn test (R52). -/
theorem exec_slotStart_own (hactive : s.rot.station = .active) (hslot : s.rot.position = .slot)
    (hcomes : slotComes s i) (hi : i ≤ s.straps.highest)
    (hown : (s.rot.base + i) % (s.straps.highest + 1) = s.straps.own) :
    exec .slotStart s = .next (atSlot s i).ownTurn := by
  refine congrArg Host.Outcome.next ?_
  rw [slotComes_upcoming hcomes, if_pos ⟨hactive, hslot, by omega⟩]
  exact if_pos (decide_eq_true ⟨hi, hown⟩)

/-! ## The own-turn test (R52) -/

theorem State.lineIdle_of {u : State} (hq : 64 ≤ u.quiet.elapsed) (ha : u.asm.cond = .idle)
    (hrx : u.rx.cond ≠ .receiving) : u.lineIdle = true := by
  simp [State.lineIdle, Config.settleGap, hq, ha, hrx]

/-- With every condition of R52 met, the entry offered is requested of the emitter. -/
theorem State.ownTurn_requests {u : State} {e : TxEntry} (hl : u.rot.leaving = false) (hidle : u.lineIdle = true)
    (he : offer u.txq = some e) : u.ownTurn = u.requestEntry e := by
  rw [State.ownTurn, if_pos ⟨hl, hidle⟩, he]

end

/-! ## The offer (R108) -/

section
variable {q : List TxEntry} {e : TxEntry}

theorem offer_inFlight (h : ∃ e ∈ q, e.state = .inFlight) : offer q = none := by
  refine if_pos ?_
  simpa using h

theorem offer_mem (h : offer q = some e) : e ∈ q := by
  unfold offer at h
  split at h
  · cases h
  · exact List.mem_of_find?_eq_some h

/-- The head of a queue under the law of selection is eligible unless it is IN_FLIGHT. -/
theorem eligible_head {s : State} {rest : List TxEntry} (hlaw : s.headLaw) (hq : s.txq = e :: rest)
    (hstate : e.state ≠ .inFlight) : eligible (e :: rest) e = true := by
  obtain ⟨-, hentries, -, -⟩ := hlaw
  obtain ⟨-, -, hcancel, hcast⟩ := hentries e (by simp [hq])
  unfold eligible
  cases hc : e.isCast with
  | true =>
    obtain ⟨hout, -⟩ := hcast hc
    cases hs : e.state <;> simp_all
  | false =>
    have hpending : e.cancelPending = false := Bool.eq_false_iff.2 fun h => hstate (hcancel h)
    simp [hstate, hpending]

/-- Under the law of selection the offer is the head of the queue, unless it is IN_FLIGHT. -/
theorem offer_head {s : State} {rest : List TxEntry} (hlaw : s.headLaw) (hq : s.txq = e :: rest)
    (hstate : e.state ≠ .inFlight) : offer s.txq = some e := by
  have hhead := eligible_head hlaw hq hstate
  obtain ⟨-, -, htail, -⟩ := hlaw
  have hnone : ¬ ((e :: rest).any fun e => e.state == .inFlight) = true := by
    rw [hq] at htail
    simp only [List.any_eq_true, List.mem_cons, beq_iff_eq, not_exists, not_and]
    rintro x (rfl | hx)
    · exact hstate
    · rw [(htail x hx).1]; simp
  rw [hq, offer, if_neg hnone, List.find?_cons, hhead]

end

/-! ## A request taken (R33, R68, R93, R109) -/

/-- The request of an entry's frame: the class of the source, and the header. -/
def requestOf (s : State) (e : TxEntry) : FrameKind × List Byte :=
  if e.isCast = true then (.cast, castHeader s.straps.own e.length)
  else (.data, dataHeader s.straps.own (s.peer e.dest).txSeq e.dest (s.peer e.dest).refreshDue e.length)

theorem TxEntry.isCast_iff (e : TxEntry) : e.isCast = true ↔ e.dest = 31 := by
  simp [TxEntry.isCast, Config.castDest]

theorem TxEntry.isCast_false_iff (e : TxEntry) : e.isCast = false ↔ e.dest ≠ 31 := by
  rw [← Bool.not_eq_true, TxEntry.isCast_iff]

/-- A frame begun: the emitter has taken the request and covered char 0, and the driver begins it at that instant
(R11). -/
theorem State.beginFrame_eq (s : State) (src : FrameSource) (header : List Byte) (blocks : List Nat) (len : Nat) :
    s.beginFrame src header blocks len = { s with
      em :=
        { cond := .emitting, source := src, header := header, blocks := blocks, length := len, index := 0,
          count := len + 5, crc := crcByte 0xFFFF (header.getD 0 0), frameStart := s.now }
      driver :=
        { cond := .driving, char := { data := header.getD 0 0, edge := true }, charStart := s.now, sent := false,
          next := none } } := by
  simp only [State.beginFrame, Emitter.cover, Emitter.begin, Emitter.charByte, Emitter.lineChar]
  rw [if_pos (by omega)]
  rfl

/-- The emitter takes the request of an entry. -/
theorem State.startEntry_eq (s : State) (e : TxEntry) :
    s.startEntry e =
      State.beginFrame
        { s with
          rot := s.rot.ownFrameBegun
          txq := updateEntry s.txq e.ref TxEntry.select
          peers :=
            if e.dest = 31 then s.peers else s.peers.modify e.dest fun p => p.setOutstanding e.ref
          watch :=
            if e.dest = 31 then s.watch
            else .noted { entry := e.ref, dest := e.dest, seq := (s.peer e.dest).txSeq } }
        (.transmit e.ref (requestOf s e).1) (requestOf s e).2 e.blocks e.length := by
  unfold State.startEntry requestOf
  by_cases h : e.dest = 31
  · simp only [(TxEntry.isCast_iff e).2 h, if_true, if_pos h]
    rfl
  · simp only [(TxEntry.isCast_false_iff e).2 h, Bool.false_eq_true, if_false, if_neg h]
    rfl

/-- Settles O24: the slot's start is an own turn with a request that the emitter takes (`State.startEntry_eq`), and the
offer is read off the head of the queue. -/
theorem ownTurnBeginsAFrame : Obligations.OwnTurnBeginsAFrame := by
  refine ⟨?_, fun q => offer_inFlight, rfl, fun s e rest => offer_head⟩
  rintro s u i e hactive hslot hcomes hi rfl hown hl hq ha hrx he hem
  refine ⟨(requestOf s e).2, (requestOf s e).1, fun h => ?_, fun h => ?_, ?_⟩
  · rw [requestOf, if_pos ((TxEntry.isCast_iff e).2 h)]
    exact ⟨rfl, rfl⟩
  · rw [requestOf, if_neg (by simp [(TxEntry.isCast_false_iff e).2 h])]
    refine ⟨rfl, ?_⟩
    cases hf : (s.peer e.dest).refreshDue <;> rfl
  · rw [exec_slotStart_own hactive hslot hcomes hi hown,
      State.ownTurn_requests (u := atSlot s i) hl (State.lineIdle_of hq ha hrx) he, State.requestEntry,
      if_pos (show (atSlot s i).em.cond = .idle from (State.runTo_em_cond ..).trans hem), State.startEntry_eq,
      State.beginFrame_eq]
    rfl

/-! ## A request refused (R53, R110) -/

section
variable {q : List TxEntry} {ref : Nat} {e : TxEntry} {f g : TxEntry → TxEntry}

/-- With distinct references an entry of the queue is found by its own. -/
theorem findEntry_mem (hnodup : (q.map (·.ref)).Nodup) (he : e ∈ q) : findEntry q e.ref = some e := by
  induction q with
  | nil => cases he
  | cons x xs ih =>
    rw [List.map_cons, List.nodup_cons] at hnodup
    obtain ⟨hx, hxs⟩ := hnodup
    rw [findEntry, List.find?_cons]
    rcases List.mem_cons.1 he with rfl | hmem
    · simp
    · have hne : x.ref ≠ e.ref := fun h => hx (h ▸ List.mem_map_of_mem hmem)
      rw [beq_false_of_ne hne]
      exact ih hxs hmem

/-- An entry changed under its reference is found changed. -/
theorem findEntry_updateEntry (hf : ∀ x, (f x).ref = x.ref) (h : findEntry q ref = some e) :
    findEntry (updateEntry q ref f) ref = some (f e) := by
  induction q with
  | nil => cases h
  | cons x xs ih =>
    rw [findEntry, List.find?_cons] at h
    rw [updateEntry, updateFirst]
    cases hx : x.ref == ref with
    | true =>
      rw [hx] at h
      cases h
      simp only [if_true, findEntry, List.find?_cons, hf, hx]
    | false =>
      rw [hx] at h
      simp only [Bool.false_eq_true, if_false, findEntry, List.find?_cons, hx]
      exact ih h

/-- Two changes of one entry are one. -/
theorem updateEntry_updateEntry (hf : ∀ x, (f x).ref = x.ref) :
    updateEntry (updateEntry q ref f) ref g = updateEntry q ref fun x => g (f x) := by
  induction q with
  | nil => rfl
  | cons x xs ih =>
    unfold updateEntry at *
    cases hx : x.ref == ref with
    | true => simp only [updateFirst, hx, hf, if_true]
    | false => simp only [updateFirst, hx, Bool.false_eq_true, if_false, ih]

end

/-- The entry with the state it holds for its return state, as a refused request leaves it (R110). -/
def TxEntry.keptState (e : TxEntry) : TxEntry := { e with returnState := e.state }

/-- A refused request keeps the entry's state, and takes an entry WAITING from its peer's reference. -/
theorem State.notStarted_eq {s : State} {e : TxEntry} (h : findEntry s.txq e.ref = some e)
    (hc : e.cancelPending = false) :
    s.notStarted e = { s with
      txq := updateEntry s.txq e.ref TxEntry.keptState
      peers :=
        if e.dest ≠ 31 ∧ e.state = .waiting then s.peers.modify e.dest fun p => p.clearOutstanding e.ref
        else s.peers } := by
  have hfound : findEntry (updateEntry s.txq e.ref TxEntry.keptState) e.ref = some e.keptState :=
    findEntry_updateEntry (fun _ => rfl) h
  have hstarted : s.notStarted e = (s.setTxq (updateEntry s.txq e.ref TxEntry.keptState)).returnEntry e.ref := rfl
  obtain ⟨htxq, hcompq, hpool, hpeers⟩ := State.returnEntry_returned
    (s := s.setTxq (updateEntry s.txq e.ref TxEntry.keptState)) hfound hc
  rw [hstarted, State.returnEntry_frame, htxq, hcompq, hpool, hpeers, State.setTxq_txq,
    updateEntry_updateEntry (f := TxEntry.keptState) fun _ => rfl]
  simp only [ne_eq, ← TxEntry.isCast_false_iff]
  rfl

/-- Settles O25: the slot's start is an own turn with a request that the emitter refuses (`State.notStarted_eq`). -/
theorem ownTurnNotStarted : Obligations.OwnTurnNotStarted := by
  rintro s u i e hactive hslot hcomes hi rfl hown hl hq ha hrx he hem hnodup hc
  have hfound : findEntry s.txq e.ref = some e := findEntry_mem hnodup (offer_mem he)
  have hexec : exec .slotStart s = .next ((atSlot s i).notStarted e) := by
    rw [exec_slotStart_own hactive hslot hcomes hi hown,
      State.ownTurn_requests (u := atSlot s i) hl (State.lineIdle_of hq ha hrx) he, State.requestEntry,
      if_neg (show (atSlot s i).em.cond ≠ .idle from fun h => hem ((State.runTo_em_cond ..).symm.trans h))]
  rw [hexec, State.notStarted_eq (s := atSlot s i) hfound hc]
  exact ⟨_, rfl, rfl, rfl, rfl, rfl, rfl, rfl, rfl, rfl⟩

end Sys2Proof.Machine
end

section
/-! The bytes of a frame: the CRC, the characters that an emitter places, and a frame assembled as it was sent. -/

namespace Sys2Proof.Machine

open Sys2Proof

/-! ## The CRC (R20) -/

theorem crcBit_toNat (r : Crc) (bit : Bool) :
    (crcBit r bit).toNat =
      if decide (32768 ≤ r.toNat) = bit then 2 * r.toNat % 65536 else (2 * r.toNat % 65536) ^^^ 0x1021 := by
  have hmsb : r.msb = decide (32768 ≤ r.toNat) := BitVec.msb_eq_decide r
  have hshift : (r <<< 1).toNat = 2 * r.toNat % 65536 := by
    rw [BitVec.toNat_shiftLeft, Nat.shiftLeft_eq, Nat.mul_comm]
  unfold crcBit
  rw [← hmsb, ← hshift]
  by_cases h : r.msb = bit
  · rw [if_neg (by simp [h]), if_pos h]
  · rw [if_pos (by simp [h]), if_neg h, BitVec.toNat_xor]
    rfl

/-- The bits of a byte, as the remainders of its halvings. -/
theorem getLsbD_eq_decide (b : Byte) (i : Nat) : b.getLsbD i = decide (b.toNat / 2 ^ i % 2 = 1) := by
  rw [BitVec.getLsbD, Nat.testBit_eq_decide_div_mod_eq]

theorem crcByte_bits (r : Crc) (b : Byte) (n : Nat → Bool) (h : ∀ i, n i = decide (b.toNat / 2 ^ i % 2 = 1)) :
    crcByte r b =
      crcBit (crcBit (crcBit (crcBit (crcBit (crcBit (crcBit (crcBit r (n 7)) (n 6)) (n 5)) (n 4)) (n 3)) (n 2)) (n 1))
        (n 0) := by
  simp only [h, ← getLsbD_eq_decide]
  rfl

theorem crcOf_append (bytes more : List Byte) : crcOf (bytes ++ more) = more.foldl crcByte (crcOf bytes) :=
  List.foldl_append

/-- The two CRC characters, taken as one number, are the register. -/
theorem crcHigh_crcLow (r : Crc) : 256 * (crcHigh r).toNat + (crcLow r).toNat = r.toNat := by
  have hr := r.isLt
  simp only [crcHigh, crcLow, BitVec.toNat_ofNat]
  omega

/-! ## The characters that an emitter places (R34) -/

section
variable {em : Emitter} {len : Nat} {cells : List Host.Cell}

/-- A character before the CRC is the byte of header and payload in its place. -/
theorem Emitter.charByte_body (hh : em.header.length = 3) (hcount : em.count = len + 5) {k : Nat} (hk : k < len + 3) :
    em.charByte cells k = (em.header ++ heldPayload cells em.blocks len).getD k 0 := by
  unfold Emitter.charByte
  by_cases h3 : k < 3
  · rw [if_pos h3, List.getD_append _ _ _ _ (by omega)]
  · rw [if_neg h3, if_pos (by omega), List.getD_append_right _ _ _ _ (by omega), hh, heldPayload]
    simp [List.getD_eq_getElem?_getD, show k - 3 < len by omega]

/-- The characters of a frame from some place in it on, the CRC generator having covered those before: the rest of
header and payload, and the two CRC characters. -/
theorem placedChars_rest (rest pre : List Byte) (hh : em.header.length = 3) (hcount : em.count = len + 5)
    (hcrc : em.crc = crcOf pre) (hbody : em.header ++ heldPayload cells em.blocks len = pre ++ rest) :
    placedChars em cells pre.length (rest.length + 2) =
      (rest ++ [crcHigh (crcOf (pre ++ rest)), crcLow (crcOf (pre ++ rest))]).mapIdx
        fun i b => { data := b, edge := decide (i + pre.length = 0) } := by
  have hlen : pre.length + rest.length = len + 3 := by
    rw [← List.length_append, ← hbody]
    simp [hh, heldPayload, Nat.add_comm]
  induction rest generalizing pre em with
  | nil =>
    rw [List.length_nil, Nat.add_zero] at hlen
    simp [placedChars, hlen, Emitter.lineChar, Emitter.charByte, Emitter.cover, hcount, hcrc]
  | cons x xs ih =>
    have hlt : pre.length < len + 3 := by rw [← hlen]; simp
    have hchar : em.charByte cells pre.length = x := by
      rw [Emitter.charByte_body hh hcount hlt, hbody]
      simp
    have hcover : em.cover cells pre.length = { em with crc := crcOf (pre ++ [x]) } := by
      rw [Emitter.cover, if_pos (by omega), hchar, crcOf_append, hcrc]
      rfl
    have hrest := ih (em := em.cover cells pre.length) (pre ++ [x]) (by rw [hcover]; exact hh)
      (by rw [hcover]; exact hcount) (by rw [hcover]) (by rw [hcover, List.append_assoc]; exact hbody)
      (by rw [← hlen, List.length_append, List.length_singleton, List.length_cons]; omega)
    rw [List.length_append, List.length_singleton, List.append_assoc, List.singleton_append] at hrest
    rw [List.length_cons, Nat.add_right_comm, placedChars, hrest, Emitter.lineChar, hchar, List.cons_append,
      List.mapIdx_cons]
    simp [Nat.add_assoc, Nat.add_comm 1]

end

/-- Settles O60: the CRC bit by bit, and the characters placed one after another (`placedChars_rest`). -/
theorem emittersPlaceTheFrameBytes : Obligations.EmittersPlaceTheFrameBytes := by
  refine ⟨crcBit_toNat, crcByte_bits, ⟨rfl, fun bytes b => crcOf_append bytes [b]⟩,
    fun header payload => ⟨_, _, rfl, crcHigh_crcLow _⟩, crcHigh_crcLow, fun src header blocks len t cells hh => ?_⟩
  have hlen : (header ++ heldPayload cells blocks len).length = len + 3 := by simp [hh, heldPayload, Nat.add_comm]
  rw [show len + 5 = (header ++ heldPayload cells blocks len).length + 2 by rw [hlen]]
  exact placedChars_rest (em := Emitter.begin src header blocks len t) _ [] hh rfl rfl rfl

end Sys2Proof.Machine
end

section
/-! A frame assembled as it was sent: the fields that a header byte carries, the assembler along the bytes of a frame,
and its last two. -/

namespace Sys2Proof.Machine

open Sys2Proof

/-! ## The fields of a header byte (R19) -/

section
variable {n : Nat}

theorem kindOf_ofNat (k : FrameKind) (hn : n < 32) : kindOf (BitVec.ofNat 8 (32 * kindVal k + n)) = some k := by
  have hvalue : (BitVec.ofNat 8 (32 * kindVal k + n)).toNat / 32 = kindVal k := by
    rw [BitVec.toNat_ofNat]
    cases k <;> simp only [kindVal] <;> omega
  unfold kindOf
  rw [hvalue]
  cases k <;> rfl

theorem stationField_ofNat (m : Nat) (hn : n < 32) : stationField (BitVec.ofNat 8 (32 * m + n)) = n := by
  rw [stationField, BitVec.toNat_ofNat]
  omega

theorem seqField_ofNat (seq : Seq) (hn : n < 32) : seqField (BitVec.ofNat 8 (32 * seq.toNat + n)) = seq := by
  have hseq := seq.isLt
  rw [seqField, BitVec.toNat_ofNat, show (32 * seq.toNat + n) % 2 ^ 8 / 32 = seq.toNat by omega,
    BitVec.ofNat_toNat, BitVec.setWidth_eq]

theorem freshField_ofNat (fresh : Bool) (hn : n < 128) :
    freshField (BitVec.ofNat 8 (128 * fresh.toNat + n)) = fresh := by
  rw [freshField, BitVec.toNat_ofNat]
  cases fresh with
  | true => exact decide_eq_true (by rw [Bool.toNat_true]; omega)
  | false => exact decide_eq_false (by rw [Bool.toNat_false]; omega)

theorem lengthField_ofNat (m : Nat) (hn : n < 128) : lengthField (BitVec.ofNat 8 (128 * m + n)) = n := by
  rw [lengthField, BitVec.toNat_ofNat]
  omega

theorem codeField_ofNat (c : AnswerCode) : codeField (BitVec.ofNat 8 (codeVal c)) = c := by cases c <;> rfl

end

/-- A header that passes its checks, with the length that it announces: none in an ANSWER (R19, R23). -/
def headerOk (h : Nat) (k : FrameKind) (b0 b1 b2 : Byte) (len : Nat) : Prop :=
  kindOf b0 = some k ∧ (stationField b0 ≠ 31 ∧ stationField b0 ≤ h) ∧ checkChar1 k b1 = true ∧
    checkChar2 k b2 = true ∧ len = if k = .answer then 0 else lengthField b2

/-! ## The characters as they come (R18) -/

/-- Character `k` of a frame, as a receiver delivers it. -/
def receivedChar (start : Nat) (driven : Bool) (k : Nat) (b : Byte) : RxChar :=
  { data := b, edge := decide (k = 0), faulty := false, start := start + 176 * k, driven := driven }

/-- The characters of a frame from character `k` on. -/
def receivedFrom (start : Nat) (driven : Bool) (k : Nat) (bytes : List Byte) : List RxChar :=
  bytes.mapIdx fun i b => receivedChar start driven (i + k) b

theorem receivedFrom_cons (start : Nat) (driven : Bool) (k : Nat) (b : Byte) (rest : List Byte) :
    receivedFrom start driven k (b :: rest) =
      receivedChar start driven k b :: receivedFrom start driven (k + 1) rest := by
  simp [receivedFrom, List.mapIdx_cons, Nat.add_assoc, Nat.add_comm 1]

theorem receivedChars_eq (bytes : List Byte) (start : Nat) (driven : Bool) :
    receivedChars bytes start driven = receivedFrom start driven 0 bytes := rfl

/-! ## The assembler along a frame (R22, R23, R26) -/

theorem assembleAll_cons {own h : Nat} {a b : Assembler} {m n : AsmNotice} {c : RxChar} (rest : List RxChar)
    (hc : a.deliver own h (c.start + 169) c = (b, m)) :
    assembleAll own h a n (c :: rest) = assembleAll own h b m rest := by
  rw [assembleAll, hc]

/-- The assembler with the bytes `taken` of a frame that began at `start`, all `driven` or not, the expected count as
given. -/
def openAfter (start : Nat) (driven : Bool) (taken : List Byte) (ex : Option Nat) : Assembler :=
  { cond := .inFrame, buffer := taken, count := taken.length, expected := ex, crc := crcOf taken,
    startInstant := start, dueInstant := start + 176 * taken.length, ownSoFar := driven }

section
variable {own h start : Nat} {driven : Bool} {taken : List Byte} {ex : Option Nat}

/-- Char 0 opens the frame. -/
theorem deliver_char0 {a : Assembler} {k : FrameKind} {b : Byte} (t : Nat) (ha : a.cond = .idle)
    (hk : kindOf b = some k) (hn : stationField b ≠ 31) (hh : stationField b ≤ h) :
    a.deliver own h t (receivedChar start driven 0 b) =
      (openAfter start driven [b] (if k = .answer then some 5 else none), .opened start k) := by
  rw [Assembler.deliver, ha]
  exact Assembler.openFrame_opens (c := receivedChar start driven 0 b) rfl rfl hk hn hh

/-- A further character that passes its checks, before the two of the CRC, is taken and covered. -/
theorem openAfter_takes {b : Byte} (t : Nat) (hpos : taken.length ≠ 0)
    (hok : (openAfter start driven taken ex).charOk b = true)
    (hmore : ∀ n, (openAfter start driven taken ex).expectedWith b = some n → taken.length + 2 < n) :
    (openAfter start driven taken ex).deliver own h t (receivedChar start driven taken.length b) =
      (openAfter start driven (taken ++ [b]) ((openAfter start driven taken ex).expectedWith b), .quiet) := by
  have hcovered : (openAfter start driven taken ex).crcWith b = crcOf (taken ++ [b]) := by
    rw [crcOf_append]
    exact (Assembler.crcWith_eq _ b).trans (if_pos ((Option.all_eq_true _ _).2 fun n hn => decide_eq_true (hmore n hn)))
  have hlast : ¬ (openAfter start driven taken ex).expectedWith b = some (taken.length + 1) := fun hlast => by
    have := hmore _ hlast
    omega
  refine (Assembler.deliver_passes (c := receivedChar start driven taken.length b) rfl rfl (decide_eq_false hpos)
    hok).trans ((if_neg hlast).trans (congrArg (·, AsmNotice.quiet) ?_))
  rw [Assembler.takeChar, show (receivedChar start driven taken.length b).data = b from rfl, hcovered]
  simp [openAfter, receivedChar, Nat.mul_add, Nat.add_assoc]

/-- From char 3 on a character needs no check and leaves the expected count. -/
theorem openAfter_next {b : Byte} {total : Nat} (t : Nat) (hcount : 3 ≤ taken.length)
    (hmore : taken.length + 2 < total) :
    (openAfter start driven taken (some total)).deliver own h t (receivedChar start driven taken.length b) =
      (openAfter start driven (taken ++ [b]) (some total), .quiet) := by
  have hexpected : (openAfter start driven taken (some total)).expectedWith b = some total :=
    Assembler.expectedWith_later hcount
  rw [openAfter_takes t (by omega) (Assembler.charOk_later hcount b), hexpected]
  rw [hexpected]
  rintro n ⟨rfl⟩
  exact hmore

end

section
variable {own h : Nat}

/-- The first CRC character is taken, and not covered. -/
theorem Assembler.deliver_crcHigh {a : Assembler} {c : RxChar} (t : Nat) (ha : a.cond = .inFrame)
    (hcount : 3 ≤ a.count) (hex : a.expected = some (a.count + 2)) (hf : c.faulty = false) (he : c.edge = false) :
    a.deliver own h t c = (a.takeChar c, .quiet) ∧ (a.takeChar c).crc = a.crc := by
  have hexpected : a.expectedWith c.data = some (a.count + 2) := (Assembler.expectedWith_later hcount).trans hex
  constructor
  · rw [Assembler.deliver_passes ha hf he (Assembler.charOk_later hcount _), if_neg (by simp [hexpected])]
  · rw [Assembler.takeChar, Assembler.crcWith_eq, hexpected]
    simp

/-- The second one, where the two are the running CRC, ends a good frame. -/
theorem Assembler.deliver_crcLow {a : Assembler} {c : RxChar} (t : Nat) (ha : a.cond = .inFrame)
    (hcount : 3 ≤ a.count) (hex : a.expected = some (a.count + 1)) (hf : c.faulty = false) (he : c.edge = false)
    (hhigh : (a.buffer ++ [c.data]).getD (a.count - 1) 0 = crcHigh a.crc)
    (hlow : (a.buffer ++ [c.data]).getD a.count 0 = crcLow a.crc) :
    (a.deliver own h t c).2 = .good ((a.takeChar c).frame own t) := by
  have hlast : a.expectedWith c.data = some (a.count + 1) := (Assembler.expectedWith_later hcount).trans hex
  have hmatches : (a.takeChar c).crcMatches = true :=
    (Assembler.crcMatches_takeChar_iff hlast).2 (by rw [hhigh, hlow, Nat.mul_comm, crcHigh_crcLow])
  rw [Assembler.deliver_passes ha hf he (Assembler.charOk_later hcount _), if_pos hlast, Assembler.finish,
    if_pos hmatches]

end

section
variable {own h start : Nat} {driven : Bool} {taken : List Byte} {ex : Option Nat}

/-- The two CRC characters of the bytes taken end the frame. -/
theorem openAfter_ends (n : AsmNotice) (hcount : 3 ≤ taken.length) :
    ∃ a : Assembler, a.buffer = taken ++ [crcHigh (crcOf taken), crcLow (crcOf taken)] ∧ a.startInstant = start ∧
      a.ownSoFar = driven ∧
      (assembleAll own h (openAfter start driven taken (some (taken.length + 2))) n
        (receivedFrom start driven taken.length [crcHigh (crcOf taken), crcLow (crcOf taken)])).2 =
          .good (a.frame own (start + 176 * (taken.length + 1) + 169)) := by
  obtain ⟨hhigh, hcrc⟩ := Assembler.deliver_crcHigh (own := own) (h := h)
    (a := openAfter start driven taken (some (taken.length + 2)))
    (c := receivedChar start driven taken.length (crcHigh (crcOf taken))) (start + 176 * taken.length + 169)
    rfl hcount rfl rfl (decide_eq_false (by omega))
  have hexpected := Assembler.expectedWith_later (a := openAfter start driven taken (some (taken.length + 2)))
    (b := crcHigh (crcOf taken)) hcount
  have hlow := Assembler.deliver_crcLow (own := own) (h := h)
    (c := receivedChar start driven (taken.length + 1) (crcLow (crcOf taken)))
    (start + 176 * (taken.length + 1) + 169) (show _ = AsmCond.inFrame from rfl) (Nat.le_succ_of_le hcount) hexpected
    rfl rfl (by rw [hcrc]; simp [Assembler.takeChar, openAfter, receivedChar])
    (by rw [hcrc]; simp [Assembler.takeChar, openAfter, receivedChar])
  rw [receivedFrom_cons, assembleAll_cons _ hhigh, receivedFrom_cons, assembleAll]
  exact ⟨_, by simp [Assembler.takeChar, openAfter, receivedChar], rfl,
    by simp [Assembler.takeChar, openAfter, receivedChar], hlow⟩

/-- The rest of the payload and the two CRC characters end the frame. -/
theorem openAfter_finishes (n : AsmNotice) (rest : List Byte) (hcount : 3 ≤ taken.length) :
    ∃ a : Assembler,
      a.buffer = taken ++ rest ++ [crcHigh (crcOf (taken ++ rest)), crcLow (crcOf (taken ++ rest))] ∧
      a.startInstant = start ∧ a.ownSoFar = driven ∧
      (assembleAll own h (openAfter start driven taken (some (taken.length + rest.length + 2))) n
        (receivedFrom start driven taken.length
          (rest ++ [crcHigh (crcOf (taken ++ rest)), crcLow (crcOf (taken ++ rest))]))).2 =
        .good (a.frame own (start + 176 * (taken.length + rest.length + 1) + 169)) := by
  induction rest generalizing taken n with
  | nil => simpa using openAfter_ends n hcount
  | cons b rest ih =>
    have hmore : taken.length + 2 < taken.length + (b :: rest).length + 2 := by simp
    have hrest := ih (taken := taken ++ [b]) .quiet (by simp; omega)
    simp only [List.append_assoc, List.singleton_append, List.length_append, List.length_singleton] at hrest
    rw [List.cons_append, receivedFrom_cons, assembleAll_cons _ (openAfter_next _ hcount hmore), List.length_cons,
      Nat.add_comm rest.length, ← Nat.add_assoc]
    simpa using hrest

end

/-! ## A whole frame (R29) -/

section
variable {own h start : Nat} {driven : Bool} {k : FrameKind} {b0 b1 b2 : Byte} {len : Nat}

/-- The expected count after char 2: that of the header's length, in every kind (R23). -/
theorem openAfter_expectedWith_char2 (hk : kindOf b0 = some k)
    (hlen : len = if k = .answer then 0 else lengthField b2) :
    (openAfter start driven [b0, b1] (if k = .answer then some 5 else none)).expectedWith b2 = some (len + 5) := by
  have hkind : (openAfter start driven [b0, b1] (if k = .answer then some 5 else none)).kind = k := by
    simp [Assembler.kind, openAfter, hk]
  rw [Assembler.expectedWith, hkind, hlen]
  cases k <;> rfl

/-- The three characters of a header that passes its checks open the frame. -/
theorem assembleAll_header {a : Assembler} (n : AsmNotice) (rest : List Byte) (ha : a.cond = .idle)
    (hok : headerOk h k b0 b1 b2 len) :
    assembleAll own h a n (receivedFrom start driven 0 (b0 :: b1 :: b2 :: rest)) =
      assembleAll own h (openAfter start driven [b0, b1, b2] (some (len + 5))) .quiet
        (receivedFrom start driven 3 rest) := by
  obtain ⟨hk, ⟨hn, hh⟩, h1, h2, hlen⟩ := hok
  have hkind (taken : List Byte) (ex : Option Nat) : (openAfter start driven (b0 :: taken) ex).kind = k := by
    simp [Assembler.kind, openAfter, hk]
  have hexpected := openAfter_expectedWith_char2 (start := start) (driven := driven) (b1 := b1) hk hlen
  have hchar1 := openAfter_takes (own := own) (h := h) (start := start) (driven := driven) (taken := [b0])
    (ex := if k = .answer then some 5 else none) (b := b1) (start + 176 * 1 + 169) (by simp)
    ((Assembler.charOk_char1 rfl b1).trans (by rw [hkind, h1]))
    (by cases k <;> simp [Assembler.expectedWith, openAfter])
  have hchar2 := openAfter_takes (own := own) (h := h) (start := start) (driven := driven) (taken := [b0, b1])
    (ex := if k = .answer then some 5 else none) (b := b2) (start + 176 * 2 + 169) (by simp)
    ((Assembler.charOk_char2 rfl b2).trans (by rw [hkind, h2])) (by simp [hexpected])
  rw [hexpected] at hchar2
  rw [receivedFrom_cons, receivedFrom_cons, receivedFrom_cons, assembleAll_cons _ (deliver_char0 _ ha hk hn hh),
    assembleAll_cons _ hchar1, assembleAll_cons _ hchar2]
  rfl

/-- The good-frame notice of a frame with the given header and payload (R29, R31, R32). -/
def sentFrame (k : FrameKind) (b0 b1 b2 : Byte) (payload : List Byte) (own start : Nat) (driven : Bool) : Frame :=
  { kind := k, sender := stationField b0, dest := stationField b1, seq := seqField b1, fresh := freshField b2,
    length := payload.length, payload := payload, code := codeField b2, start := start,
    fin := start + 176 * (payload.length + 4) + 169, own := driven,
    sameNumber := decide (stationField b0 = own) && !driven }

/-- The notice read off a buffer that holds a whole frame. -/
theorem Assembler.frame_eq {a : Assembler} {payload crc : List Byte} (hk : kindOf b0 = some k)
    (hlen : payload.length = if k = .answer then 0 else lengthField b2)
    (hbuffer : a.buffer = [b0, b1, b2] ++ payload ++ crc) :
    a.frame own (a.startInstant + 176 * (payload.length + 4) + 169) =
      sentFrame k b0 b1 b2 payload own a.startInstant a.ownSoFar := by
  have hkind : a.kind = k := by simp [Assembler.kind, hbuffer, hk]
  simp [Assembler.frame, sentFrame, hkind, hbuffer, ← hlen]

/-- A frame whose header passes its checks is assembled as it was sent. -/
theorem frame_assembled {a : Assembler} {payload : List Byte} (ha : a.cond = .idle)
    (hok : headerOk h k b0 b1 b2 payload.length) :
    (assembleAll own h a .quiet (receivedChars (frameBytes [b0, b1, b2] payload) start driven)).2 =
      .good (sentFrame k b0 b1 b2 payload own start driven) := by
  obtain ⟨u, hbuffer, rfl, rfl, hnotice⟩ := openAfter_finishes (own := own) (h := h) (start := start) (driven := driven)
    (taken := [b0, b1, b2]) .quiet payload le_rfl
  have hcount : [b0, b1, b2].length + payload.length + 2 = payload.length + 5 := by simp; omega
  have hfin : [b0, b1, b2].length + payload.length + 1 = payload.length + 4 := by simp; omega
  rw [hcount, hfin] at hnotice
  rw [receivedChars_eq, frameBytes, List.append_assoc]
  refine (congrArg Prod.snd (assembleAll_header .quiet _ ha hok)).trans (hnotice.trans ?_)
  obtain ⟨hk, -, -, -, hlen⟩ := hok
  rw [Assembler.frame_eq hk hlen hbuffer]

end

/-! ## The three kinds (R19) -/

section
variable {h sender dest len : Nat}

theorem headerOk_data (seq : Seq) (fresh : Bool) (hs : sender ≤ h) (hh : h ≤ 30) (hd : dest ≤ 30) (h1 : 1 ≤ len)
    (h120 : len ≤ 120) :
    headerOk h .data (BitVec.ofNat 8 (32 * kindVal .data + sender)) (BitVec.ofNat 8 (32 * seq.toNat + dest))
      (BitVec.ofNat 8 (128 * fresh.toNat + len)) len := by
  refine ⟨kindOf_ofNat .data (by omega), ?_, decide_eq_true ?_, decide_eq_true ?_, ?_⟩
  · rw [stationField_ofNat _ (by omega)]; omega
  · rw [stationField_ofNat _ (by omega)]; omega
  · rw [lengthField_ofNat _ (by omega)]; omega
  · rw [lengthField_ofNat _ (by omega)]; rfl

theorem headerOk_cast (hs : sender ≤ h) (hh : h ≤ 30) (h1 : 1 ≤ len) (h120 : len ≤ 120) :
    headerOk h .cast (BitVec.ofNat 8 (32 * kindVal .cast + sender)) 0x1F (BitVec.ofNat 8 len) len := by
  have hlen : (BitVec.ofNat 8 len).toNat = len := by rw [BitVec.toNat_ofNat]; omega
  refine ⟨kindOf_ofNat .cast (by omega), ?_, by decide, (checkChar2_cast_iff _).2 ?_, ?_⟩
  · rw [stationField_ofNat _ (by omega)]; omega
  · rw [hlen]; omega
  · rw [lengthField, hlen, if_neg (by decide)]; omega

theorem headerOk_answer (seq : Seq) (code : AnswerCode) (hs : sender ≤ h) (hh : h ≤ 30) :
    headerOk h .answer (BitVec.ofNat 8 (32 * kindVal .answer + sender)) (BitVec.ofNat 8 (32 * seq.toNat + dest))
      (BitVec.ofNat 8 (codeVal code)) 0 := by
  refine ⟨kindOf_ofNat .answer (by omega), ?_, rfl, by cases code <;> decide, rfl⟩
  rw [stationField_ofNat _ (by omega)]; omega

end

/-- Settles O59: each kind's header passes its checks, and its fields are read as they were written. -/
theorem framesAreAssembledAsSent : Obligations.FramesAreAssembledAsSent := by
  refine ⟨?_, ?_, ?_⟩
  · intro own h sender dest start seq fresh driven payload a ha hs hh hd h1 h120
    refine ⟨_, frame_assembled ha (headerOk_data seq fresh hs hh hd h1 h120), rfl, stationField_ofNat _ (by omega),
      stationField_ofNat _ (by omega), seqField_ofNat _ (by omega), freshField_ofNat _ (by omega), rfl, rfl, rfl,
      rfl, ?_, ?_⟩
    · simp only [sentFrame]; omega
    · simp [sentFrame, stationField_ofNat _ (show sender < 32 by omega)]
  · intro own h sender start driven payload a ha hs hh h1 h120
    refine ⟨_, frame_assembled ha (headerOk_cast hs hh h1 h120), rfl, stationField_ofNat _ (by omega), rfl, rfl, rfl,
      rfl, rfl, rfl, ?_⟩
    simp only [sentFrame]; omega
  · intro own h answerer dest start seq code driven a ha hs hh hd
    exact ⟨_, frame_assembled (payload := []) ha (headerOk_answer seq code hs hh), rfl, stationField_ofNat _ (by omega),
      stationField_ofNat _ (by omega), seqField_ofNat _ (by omega), codeField_ofNat code, rfl, rfl, rfl⟩

end Sys2Proof.Machine
end

section
/-! The law of the rotation controller: every change that a command makes to it keeps the law. -/

namespace Sys2Proof.Machine

open Sys2Proof

/-- What the law says of the rotation controller but for its activities, on a line with highest station `h` (R38, R57):
the part that the end of an activity keeps before its test of R61. -/
structure Rotation.Placed (h : Nat) (r : Rotation) : Prop where
  anchored_iff : r.anchored = true ↔ r.station = .active
  unplaced_iff : r.position = .unplaced ↔ r.station ≠ .active
  base_le : r.base ≤ h
  fault_le : r.faultCount ≤ 8
  fault_limit : r.faultCount = 8 → r.station = .withdrawn
  leaving_onLine : r.leaving = true → r.station = .listen ∨ r.station = .active

/-- The law of the rotation controller: placed, and leaving only with an activity in progress (R60, R61). -/
structure Rotation.Lawful (h : Nat) (r : Rotation) : Prop extends r.Placed h where
  leaving_busy : r.leaving = true → r.ownFrame = true ∨ r.answerWatch = true ∨ r.answer = true

theorem State.rotationLaw_iff (s : State) : s.rotationLaw ↔ s.rot.Lawful s.straps.highest :=
  ⟨fun ⟨h1, h2, h3, h4, h5, h6⟩ => ⟨⟨h1, h2, h3, h4, h5, fun g => (h6 g).1⟩, fun g => (h6 g).2⟩,
    fun l => ⟨l.anchored_iff, l.unplaced_iff, l.base_le, l.fault_le, l.fault_limit,
      fun g => ⟨l.leaving_onLine g, l.leaving_busy g⟩⟩⟩

section
variable {h : Nat} {r u : Rotation}

/-- What the law reads of the rotation controller. -/
def Rotation.lawView (r : Rotation) : StationState × Bool × Position × Nat × Nat × Bool × Bool × Bool × Bool :=
  (r.station, r.anchored, r.position, r.base, r.faultCount, r.leaving, r.ownFrame, r.answerWatch, r.answer)

/-- A change of what the law does not read keeps it. -/
theorem Rotation.Lawful.of_view (l : r.Lawful h) (e : u.lawView = r.lawView) : u.Lawful h := by
  simp only [Rotation.lawView, Prod.mk.injEq] at e
  obtain ⟨hs, ha, hp, hb, hf, hl, ho, hw, hn⟩ := e
  refine ⟨⟨?_, ?_, ?_, ?_, ?_, ?_⟩, ?_⟩ <;> simp only [hs, ha, hp, hb, hf, hl, ho, hw, hn]
  exacts [l.anchored_iff, l.unplaced_iff, l.base_le, l.fault_le, l.fault_limit, l.leaving_onLine, l.leaving_busy]

/-! ## The changes of station -/

/-- A station that withdraws gives up anchor, position and leaving-pending (R57, R60, R61). -/
theorem Rotation.withdraw_lawful (c : WithdrawCause) (hbase : r.base ≤ h) (hfault : r.faultCount ≤ 8) :
    (r.withdraw c).Lawful h := by
  refine ⟨⟨?_, ?_, hbase, hfault, fun _ => rfl, ?_⟩, ?_⟩ <;>
    simp [Rotation.withdraw, Rotation.setChange, Rotation.unplace]

/-- Not between activities, one of them is in progress (R59). -/
theorem Rotation.busy_of (hbusy : ¬ r.betweenActivities = true) :
    r.ownFrame = true ∨ r.answerWatch = true ∨ r.answer = true := by
  contrapose! hbusy
  simpa [Rotation.betweenActivities, and_assoc] using hbusy

/-- The test at the end of an activity leaves leaving-pending only with an activity left (R61). -/
theorem Rotation.Placed.settle (p : r.Placed h) : r.settle.Lawful h := by
  unfold Rotation.settle
  split
  · exact Rotation.withdraw_lawful _ p.base_le p.fault_le
  · rename_i hstays
    refine ⟨p, fun hleaving => ?_⟩
    have hline : r.onLine = true := (Rotation.onLine_iff r).2 (p.leaving_onLine hleaving)
    exact Rotation.busy_of fun hbetween => hstays ⟨hleaving, hbetween, hline⟩

/-- A station in LISTEN or ACTIVE is below the fault limit (R57). -/
theorem Rotation.Placed.fault_lt (p : r.Placed h) (hr : r.station = .active ∨ r.station = .listen) :
    r.faultCount ≠ 8 := fun g => by
  rcases hr with hr | hr <;> simp [p.fault_limit g] at hr

/-- A station that enters LISTEN from ACTIVE is unplaced (R51). -/
theorem Rotation.Placed.enterListen (p : r.Placed h) (hr : r.station = .active) (t : Nat) (keep : Bool) :
    (r.enterListen t keep).Placed h := by
  have hfault := p.fault_lt (.inl hr)
  refine ⟨?_, ?_, p.base_le, p.fault_le, fun g => absurd g hfault, ?_⟩ <;>
    simp [Rotation.enterListen, Rotation.unplace]

/-- A station in LISTEN or ACTIVE that is ACTIVE afterwards, with a position and an anchor, and busy if it was. -/
theorem Rotation.Lawful.activate (l : r.Lawful h) (hr : r.station = .active ∨ r.station = .listen)
    (hs : u.station = .active) (ha : u.anchored = true) (hp : u.position ≠ .unplaced) (hb : u.base ≤ h)
    (hfault : u.faultCount = r.faultCount) (hleaving : u.leaving = r.leaving)
    (hbusy : r.ownFrame = true ∨ r.answerWatch = true ∨ r.answer = true →
      u.ownFrame = true ∨ u.answerWatch = true ∨ u.answer = true) : u.Lawful h where
  anchored_iff := by simp [ha, hs]
  unplaced_iff := by simp [hp, hs]
  base_le := hb
  fault_le := hfault ▸ l.fault_le
  fault_limit g := absurd (hfault ▸ g) (l.fault_lt hr)
  leaving_onLine _ := .inr hs
  leaving_busy g := hbusy (l.leaving_busy (hleaving ▸ g))

/-- A change of an ACTIVE station's position alone, to another place in the rotation. -/
theorem Rotation.Lawful.move (l : r.Lawful h) (hr : r.station = .active) {p : Position} (hp : p ≠ .unplaced)
    (m : Bool) : ({ r with position := p, marker := m }).Lawful h :=
  l.activate (.inl hr) hr (l.anchored_iff.2 hr) hp l.base_le rfl rfl id

theorem nextBase_le (h k : Nat) : nextBase h k ≤ h := Nat.lt_succ_iff.1 (Nat.mod_lt _ (Nat.succ_pos h))

/-! ## The notices of the assembler (R42 to R50) -/

theorem Rotation.Lawful.onFrameOpened (l : r.Lawful h) (start : Nat) : (r.onFrameOpened start).Lawful h := by
  unfold Rotation.onFrameOpened
  split
  · rename_i hr
    split
    · exact l.move hr (by decide) false
    · exact l.move hr (by decide) false
    · split
      · exact l.move hr (by decide) true
      · exact l
    · exact l
    · exact l
  · exact l

theorem Rotation.Lawful.countDamage (l : r.Lawful h) : r.countDamage.Lawful h := l.of_view rfl

theorem Rotation.Lawful.enterListen (l : r.Lawful h) (hr : r.station = .active) (t : Nat) (keep : Bool) :
    (r.enterListen t keep).Lawful h :=
  ⟨l.toPlaced.enterListen hr t keep, l.leaving_busy⟩

theorem Rotation.Lawful.beginSlots (l : r.Lawful h) (hr : r.station = .active ∨ r.station = .listen) (t b : Nat)
    (hb : b ≤ h) : ({ r.beginSlots t with base := b }).Lawful h :=
  l.activate hr rfl rfl nofun hb rfl rfl id

theorem Rotation.Lawful.onGoodFrame (l : r.Lawful h) (f : Frame) : (r.onGoodFrame h f).Lawful h := by
  unfold Rotation.onGoodFrame
  split
  · rename_i hline
    have hr : r.station = .active ∨ r.station = .listen := ((Rotation.onLine_iff r).1 hline).symm
    split
    · exact l.beginSlots hr _ _ (nextBase_le ..)
    · exact l.activate hr rfl rfl nofun (nextBase_le ..) rfl rfl id
    · split
      · exact l.beginSlots hr _ _ l.base_le
      · split
        · exact l
        · unfold Rotation.misplaced
          split
          · rename_i ha; exact l.countDamage.enterListen ha _ _
          · exact l.countDamage
  · exact l

theorem Rotation.Lawful.onDamage (l : r.Lawful h) (t : Nat) : (r.onDamage t).Lawful h := by
  unfold Rotation.onDamage
  split
  · rename_i ha; exact l.countDamage.enterListen ha _ _
  · exact l.of_view rfl
  · exact l.countDamage
  · exact l

/-! ## The reports of the emitter and the answer unit (R56, R57, R59, R61) -/

/-- A fault count that has fallen is below the limit. -/
theorem Rotation.Lawful.fault_falls (l : r.Lawful h) : ({ r with faultCount := r.faultCount - 1 }).Lawful h := by
  have hle := l.fault_le
  exact ⟨⟨l.anchored_iff, l.unplaced_iff, l.base_le, Nat.le_trans (Nat.sub_le ..) hle,
    fun g => absurd g (by simp only; omega), l.leaving_onLine⟩, l.leaving_busy⟩

/-- The activities do not place the station. -/
theorem Rotation.Placed.activities (p : r.Placed h) (ownFrame answerWatch answer : Bool) :
    ({ r with ownFrame := ownFrame, answerWatch := answerWatch, answer := answer }).Placed h :=
  ⟨p.anchored_iff, p.unplaced_iff, p.base_le, p.fault_le, p.fault_limit, p.leaving_onLine⟩

theorem Rotation.Lawful.onEmitted (l : r.Lawful h) (k : FrameKind) : (r.onEmitted k).Lawful h := by
  have p := l.fault_falls.toPlaced
  cases k with
  | cast => exact (p.activities false _ _).settle
  | data => exact ⟨p.activities false true _, fun _ => .inr (.inl rfl)⟩
  | answer => exact l.fault_falls

/-- A lost report below the limit leaves the station placed, and the end of its activity is tested after it. -/
theorem Rotation.Lawful.onLost (l : r.Lawful h) (k : FrameKind) (start t : Nat) (m : Mismatch) :
    (r.onLost k start t m).Lawful h := by
  unfold Rotation.onLost
  dsimp only
  split
  · exact Rotation.withdraw_lawful _ l.base_le (Nat.min_le_left ..)
  · rename_i hbelow
    have hlost : ({ r with
        faultCount := satSucc Config.faultLimit r.faultCount, losses := satSucc Config.countMax r.losses,
        ownFrame := if k = FrameKind.answer then r.ownFrame else false } : Rotation).Placed h :=
      ⟨l.anchored_iff, l.unplaced_iff, l.base_le, Nat.min_le_left .., fun g => absurd (Nat.le_of_eq g.symm) hbelow,
        l.leaving_onLine⟩
    split
    · rename_i ha; exact (hlost.enterListen ha _ _).settle
    · exact hlost.settle

theorem Rotation.Lawful.answerDue (l : r.Lawful h) : r.answerDue.Lawful h :=
  ⟨l.toPlaced.activities _ _ true, fun _ => .inr (.inr rfl)⟩

/-! ## LEAVE and REJOIN (R60, R62) -/

theorem Rotation.Lawful.leave (l : r.Lawful h) (hr : r.station = .active ∨ r.station = .listen) :
    r.leave.1.Lawful h := by
  unfold Rotation.leave
  split
  · exact Rotation.withdraw_lawful _ l.base_le l.fault_le
  · rename_i hbusy
    exact ⟨⟨l.anchored_iff, l.unplaced_iff, l.base_le, l.fault_le, l.fault_limit, fun _ => hr.symm⟩,
      fun _ => Rotation.busy_of hbusy⟩

/-- A station that rejoins enters LISTEN with no fault and no leaving-pending, which WITHDRAWN excludes. -/
theorem Rotation.Lawful.rejoin (l : r.Lawful h) (hr : r.station = .withdrawn) (t : Nat) : (r.rejoin t).Lawful h := by
  have hleaving : r.leaving ≠ true := fun g => by simpa [hr] using l.leaving_onLine g
  refine ⟨⟨?_, ?_, l.base_le, Nat.zero_le _, nofun, fun g => absurd g hleaving⟩, fun g => absurd g hleaving⟩
  · simpa [Rotation.rejoin, Rotation.setChange, hr] using l.anchored_iff
  · simpa [Rotation.rejoin, Rotation.setChange, hr] using l.unplaced_iff

/-! ## Every step -/

/-- Every change that a command makes to the rotation controller keeps its law. -/
theorem RotMove.lawful (m : RotMove h r u) (l : r.Lawful h) : u.Lawful h := by
  cases m with
  | opened start => exact l.onFrameOpened start
  | good f => exact l.onGoodFrame f
  | damage t => exact l.onDamage t
  | passed t ha => exact l.activate (.inl ha) ha (l.anchored_iff.2 ha) nofun l.base_le rfl rfl id
  | emitted k => exact l.onEmitted k
  | lost k start t m => exact l.onLost k start t m
  | due => exact l.answerDue
  | ended => exact (l.toPlaced.activities _ _ false).settle
  | closed => exact (l.toPlaced.activities _ false _).settle
  | slot i ha => exact l.of_view rfl
  | turn ha => exact l.activate (.inl ha) ha (l.anchored_iff.2 ha) nofun l.base_le rfl rfl fun _ => .inl rfl
  | restDue ha => exact l.move ha (by decide) r.marker
  | rest t ha => exact (l.beginSlots ha t 0 (Nat.zero_le h)).of_view rfl
  | leave ha => exact l.leave ha
  | rejoin t ha => exact l.rejoin ha t
  | cleared => exact l.of_view (by unfold Rotation.clearRequest; split <;> rfl)
  | snapshot => exact l.of_view rfl

/-- The reset values of the rotation controller meet its law (R65). -/
theorem Rotation.init_lawful (h t : Nat) : (Rotation.init t).Lawful h := by
  refine ⟨⟨?_, ?_, Nat.zero_le h, ?_, ?_, ?_⟩, ?_⟩ <;> simp [Rotation.init]

theorem Rotation.released_lawful (h t : Nat) (valid : Bool) : (Rotation.released t valid).Lawful h := by
  cases valid with
  | true => exact Rotation.init_lawful h t
  | false =>
    refine ⟨⟨?_, ?_, Nat.zero_le h, ?_, ?_, ?_⟩, ?_⟩ <;>
      simp [Rotation.released, Rotation.init, Rotation.setChange]

end

/-- Every move of a command keeps the law: it is a change of the rotation controller, a reset, or neither. -/
theorem Move.lawful {c : Instr} {s t : State} (m : Move c s t) (l : s.rot.Lawful s.straps.highest) :
    t.rot.Lawful t.straps.highest := by
  cases m with
  | side e => rw [e]; exact l
  | rotate r m => exact m.lawful l
  | watch w _ => exact l
  | selectCast e _ _ => exact l
  | selectData e q _ _ => exact l
  | refused e _ => rw [State.notStarted, State.returnEntry_frame]; exact l
  | counted ref => exact l
  | sent ref => rw [State.conclude_frame]; exact l
  | returned ref => rw [State.returnEntry_frame]; exact l
  | result w r _ => rw [State.applyWatchResult_frame]; exact l
  | cancel tag =>
    unfold State.cancelTag
    split
    · exact l
    · rw [State.cancelEntry_frame]; exact l
  | flush => rw [State.flushAll, State.cancelAll_frame]; exact l
  | post dt dest tag len payload _ _ => exact l
  | record a b f k _ _ => exact l
  | accept a b k seq fresh _ => exact l
  | castLost a b _ => exact l
  | take dt _ =>
    unfold State.removeHeadRecord
    split <;> exact l
  | reap dt _ => exact l
  | pinReset dt _ => exact Rotation.init_lawful _ _
  | release dt a b r low _ => exact Rotation.released_lawful _ _ _
  | restart dt _ => exact (Rotation.init_lawful _ s.now).of_view rfl

/-- Settles O51: every step is a run of moves, and each of them keeps the law. -/
theorem everyStepKeepsTheRotationLaw : Obligations.EveryStepKeepsTheRotationLaw := by
  intro s t hlaw e
  rw [State.rotationLaw_iff] at *
  exact step_keeps (P := fun s => s.rot.Lawful s.straps.highest) (fun c s t m l => m.lawful l) hlaw e

end Sys2Proof.Machine
end

section
/-! The driver's turn: every command lets a driver that is DRIVING go on with its character or with the one presented
after it, and only an own slot and a window start begin a frame. -/

namespace Sys2Proof.Machine

open Sys2Proof

/-- A driver DRIVING in `t` drives the character that it drove in `u`. -/
def State.DriverKept (u t : State) : Prop :=
  t.driver.cond = .driving →
    u.driver.cond = .driving ∧ t.driver.charStart = u.driver.charStart ∧ t.driver.char = u.driver.char

/-- A driver DRIVING in `t` goes on from `s` with its character, or with the one presented after it. -/
def State.DriverGoesOn (s t : State) : Prop := t.driver.cond = .driving → drivesOn s t

namespace State.DriverKept

variable {s t u : State}

theorem of_eq (h : t.driver = u.driver) : u.DriverKept t := fun hd => by rw [h] at hd ⊢; exact ⟨hd, rfl, rfl⟩

theorem refl (s : State) : s.DriverKept s := of_eq rfl

/-- A driver that is not DRIVING has nothing to keep. -/
theorem of_still (h : t.driver.cond ≠ .driving) : u.DriverKept t := fun hd => absurd hd h

theorem trans (h : s.DriverKept u) (g : u.DriverKept t) : s.DriverKept t := fun hd => by
  obtain ⟨hu, hstart, hchar⟩ := g hd
  obtain ⟨hs, hstart', hchar'⟩ := h hu
  exact ⟨hs, hstart.trans hstart', hchar.trans hchar'⟩

theorem ite {p : Prop} [Decidable p] (h : p → s.DriverKept t) : s.DriverKept (if p then t else s) := by
  split
  · exact h ‹_›
  · exact refl s

end State.DriverKept

namespace State.DriverGoesOn

variable {s t u : State}

/-- What goes on to `u` and is kept from there goes on. -/
theorem kept (h : s.DriverGoesOn u) (g : u.DriverKept t) : s.DriverGoesOn t := fun hd => by
  obtain ⟨hu, hstart, hchar⟩ := g hd
  obtain ⟨hs, hon⟩ := h hu
  exact ⟨hs, by rwa [hstart, hchar]⟩

theorem of_kept (g : s.DriverKept t) : s.DriverGoesOn t := fun hd => by
  obtain ⟨hs, hstart, hchar⟩ := g hd
  exact ⟨hs, .inl ⟨hstart, hchar⟩⟩

theorem refl (s : State) : s.DriverGoesOn s := of_kept (.refl s)

theorem ite {p : Prop} [Decidable p] (h : p → s.DriverGoesOn t) : s.DriverGoesOn (if p then t else s) := by
  split
  · exact h ‹_›
  · exact refl s

end State.DriverGoesOn

/-! ## Samples that pass (R11) -/

section
variable (s : State) (d i : Nat)

/-- A character presented is neither the one being driven nor its start. -/
theorem State.advance_driver_runTo :
    (s.advance d).driver.cond = (s.driver.runTo (s.now + d)).cond ∧
      (s.advance d).driver.charStart = (s.driver.runTo (s.now + d)).charStart ∧
      (s.advance d).driver.char = (s.driver.runTo (s.now + d)).char := by
  rw [State.advance_driver]
  split <;> exact ⟨rfl, rfl, rfl⟩

theorem State.DriverGoesOn.pass : s.DriverGoesOn (s.advance d) := fun hd => by
  obtain ⟨hcond, hstart, hchar⟩ := s.advance_driver_runTo d
  rw [hcond] at hd
  unfold drivesOn
  rw [hstart, hchar]
  rcases s.driver.runTo_cases (s.now + d) with h | ⟨hdriving, hsent, -, ⟨c, hnext, h⟩ | ⟨-, h⟩⟩
  · rw [h] at hd ⊢
    exact ⟨hd, .inl ⟨rfl, rfl⟩⟩
  · rw [h]
    exact ⟨hdriving, .inr ⟨hsent, hnext, rfl⟩⟩
  · rw [h] at hd
    cases hd

theorem State.DriverGoesOn.run : s.DriverGoesOn (s.runTo i) := pass s _

theorem State.DriverGoesOn.nextStart : s.DriverGoesOn s.toNextStart := ite fun _ => run s _

/-- Before its stop cell is compared, a driver keeps its character. -/
theorem State.DriverKept.run {s : State} (h : s.driver.sent = false) (i : Nat) :
    s.DriverKept (s.runTo i) := fun hd => by
  obtain ⟨hcond, hstart, hchar⟩ := s.advance_driver_runTo (i - s.now)
  rw [Driver.runTo_still (by simp [h])] at hcond hstart hchar
  exact ⟨hcond ▸ hd, hstart, hchar⟩

end

/-! ## The operations that leave the driver as it is -/

section
variable {s t : State}

theorem State.NoticeTouched.driver (h : s.NoticeTouched t) : t.driver = s.driver := by rw [h]
theorem State.ReportTouched.driver (h : s.ReportTouched t) : t.driver = s.driver := by rw [h]

end

section
variable (s : State)

theorem State.takeCharacter_driver (o : EndOrder) : (s.takeCharacter o).driver = s.driver := by
  unfold State.takeCharacter
  dsimp only
  split
  · rfl
  · exact (State.deliver_touched ..).driver

theorem State.glitchTruncation_driver : s.glitchTruncation.driver = s.driver := by
  unfold State.glitchTruncation
  split
  · exact s.truncate_touched.driver
  · rfl

theorem State.endWaits_driver (rotationFirst : Bool) (start : Nat) :
    (s.endWaits rotationFirst start).driver = s.driver := by
  unfold State.endWaits
  split
  · rw [(State.watchPassed_mayClose ..).touched.driver, State.glitchWindow_eq]; rfl
  · rw [State.glitchWindow_eq]; exact (s.watchPassed_mayClose start).touched.driver

theorem State.glitch_driver (rotationFirst : Bool) : (s.glitch rotationFirst).driver = s.driver :=
  (State.endWaits_driver ..).trans (State.glitchTruncation_driver _)

theorem State.exchange_driver (c : HostCommand) (b : Byte) : (State.exchange c b s).driver = s.driver := by
  unfold State.exchange State.takeParam
  dsimp only
  split
  · rfl
  · split <;> rfl

theorem State.sckRise_driver {m : Bool} {whole : Byte → State → State}
    (h : ∀ b t, (whole b t).driver = t.driver) : (s.sckRise m whole).driver = s.driver := by
  unfold State.sckRise
  split
  · rfl
  · split
    · rfl
    · exact h _ _

theorem State.sckByte_driver {b : Byte} {whole : Byte → State → State}
    (h : ∀ b t, (whole b t).driver = t.driver) : (s.sckByte b whole).driver = s.driver := by
  unfold State.sckByte
  split
  · exact h b s
  · rfl

theorem State.firstByte_driver (p : FirstByteStep) : (s.firstByte p).driver = s.driver := by
  cases p with
  | rise m => exact s.sckRise_driver fun _ _ => rfl
  | fall => rfl
  | byte b => exact s.sckByte_driver fun _ _ => rfl

theorem State.presentPost_driver : s.presentPost.1.driver = s.driver := by
  unfold State.presentPost
  dsimp only
  split <;> rfl

theorem State.presentTake_driver : s.presentTake.1.driver = s.driver := by
  unfold State.presentTake State.removeHeadRecord
  split
  · rfl
  · split
    · dsimp only; split <;> rfl
    · rfl

theorem State.presentReap_driver : s.presentReap.1.driver = s.driver := by
  unfold State.presentReap
  split
  · rfl
  · split <;> rfl

theorem State.cancelTag_driver (tag : Byte) : (s.cancelTag tag).1.driver = s.driver := by
  unfold State.cancelTag
  split
  · rfl
  · rw [State.cancelEntry_frame]

theorem State.flushAll_driver : s.flushAll.1.driver = s.driver := by
  unfold State.flushAll
  rw [State.cancelAll_frame]

theorem State.presentLeave_driver : s.presentLeave.1.driver = s.driver := by
  unfold State.presentLeave
  split <;> rfl

theorem State.presentRejoin_driver : s.presentRejoin.1.driver = s.driver := by
  unfold State.presentRejoin
  split <;> rfl

theorem State.closeStatus_driver : s.closeStatus.driver = s.driver := by
  unfold State.closeStatus
  split <;> rfl

/-- A character sent is marked so, and keeps the character presented after it or drops it. -/
theorem State.charSent_driver : ∃ n, s.charSent.driver = { s.driver with sent := true, next := n } := by
  unfold State.charSent
  dsimp only
  split
  · exact ⟨_, (State.emittedReport_touched ..).driver⟩
  · exact ⟨_, rfl⟩

/-- A mismatch leaves the driver IDLE (R13, R14). -/
theorem State.mismatch_driver (k : MismatchKind) (cell : Nat) : (s.mismatch k cell).driver.cond ≠ .driving := by
  rw [(s.mismatch_touched k cell).driver]
  exact nofun

theorem State.restTest_driver : s.restTest.driver = s.driver := by
  unfold State.restTest
  split <;> rfl

theorem State.startEdge_driver : s.startEdge.driver = s.driver := by
  unfold State.startEdge
  split
  · split <;> rfl
  · rfl

end

/-! ## The commands that begin no frame -/

namespace State.DriverKept

/-- The steps of a host transaction keep the driver's character when its close does. -/
theorem hostStep {s : State} {c : HostCommand} {p : HostPhase} {close : State → State}
    (h : s.DriverKept (close s)) : s.DriverKept (s.hostStep c p close) := by
  unfold State.hostStep
  refine ite fun _ => ?_
  cases p with
  | rise m => exact of_eq (s.sckRise_driver fun b t => t.exchange_driver c b)
  | fall => exact of_eq rfl
  | byte b => exact of_eq (s.sckByte_driver fun b t => t.exchange_driver c b)
  | close => exact h

/-- A close keeps the driver's character when the command's own effect does. -/
theorem closeCommand {s : State} {b : Bool} {act : State → State × Result} (h : s.DriverKept (act s).1) :
    s.DriverKept (s.closeCommand b act) := by
  unfold State.closeCommand
  split
  · exact of_eq rfl
  · split
    · exact h.trans (of_eq rfl)
    · exact of_eq rfl

/-- A RESTART leaves no driver DRIVING (R16). -/
theorem restart (s : State) : s.DriverKept s.restart := by
  refine of_still ?_
  unfold State.restart State.restartLine
  split
  · rename_i h; exact h ▸ nofun
  · exact nofun
  · rename_i h; exact h ▸ nofun

/-- A character sent is the one driven until the end of its stop cell (R12). -/
theorem charSent (s : State) : s.DriverKept s.charSent := by
  obtain ⟨n, h⟩ := s.charSent_driver
  exact fun hd => by rw [h] at hd ⊢; exact ⟨hd, rfl, rfl⟩

end State.DriverKept

open State.DriverGoesOn in
/-- Every command but a slot start and an answer's window start begins no frame. -/
theorem exec_driverGoesOn {c : Instr} {s t : State} (e : exec c s = .next t) (hslot : c ≠ .slotStart)
    (hanswer : c ≠ .answerWindowStart) : s.DriverGoesOn t := by
  cases c <;> simp only [exec] at e <;> injection e with e <;> subst e
  case slotStart => exact absurd rfl hslot
  case answerWindowStart => exact absurd rfl hanswer
  case pinReset dt => exact of_kept (.of_still nofun)
  case rstnRelease dt a b r l => exact (pass s dt).kept (.ite fun _ => .of_still nofun)
  case characterDelivered => exact ite fun _ => (run s _).kept (.of_eq (State.takeCharacter_driver ..))
  case startGlitch => exact ite fun _ => (run s _).kept (.of_eq (State.glitch_driver ..))
  case discardSettle => exact ite fun _ => (pass s _).kept (.of_eq rfl)
  case frameTruncation => exact ite fun _ => (run s _).kept (.of_eq (State.truncate_touched _).driver)
  case characterSent tap =>
    exact ite fun h => ((nextStart s).kept (.run h.2.1 _)).kept (.charSent _)
  case loss => exact ite fun _ => (nextStart s).kept (.of_still (State.mismatch_driver _ _ _))
  case lineFault => exact ite fun _ => (nextStart s).kept (.of_still (State.mismatch_driver _ _ _))
  case finishingEnd m =>
    refine ite fun _ => ?_
    split
    · exact of_kept (.of_still nofun)
    · exact refl s
  case secondRestSlotEnd => exact ite fun _ => (run s _).kept (.of_eq (State.restTest_driver _))
  case restDueRest => exact ite fun _ => (pass s _).kept (.of_eq rfl)
  case quietMeasurementRest => exact ite fun _ => (pass s _).kept (.of_eq rfl)
  case rotationWindowEnd =>
    split
    · rename_i e _
      refine ite fun _ => (run s (e + Config.windowClose)).kept (.of_eq ?_)
      dsimp only
      split <;> rfl
    · exact refl s
  case watchWindowEnd =>
    split
    · rename_i w e _
      refine (run s (e + Config.windowClose)).kept (.of_eq ?_)
      dsimp only
      split
      · rfl
      · rw [State.closeWatch_frame]
    all_goals exact refl s
  case transactionOpen dt => exact (pass s dt).kept (.ite fun _ => .of_eq rfl)
  case commandDecode dt p => exact (pass s dt).kept (.ite fun _ => .of_eq (State.firstByte_driver ..))
  case postPayloadByte dt b =>
    exact (pass s dt).kept (.ite fun _ => .of_eq (State.sckByte_driver _ fun b t => t.exchange_driver _ b))
  case voidTransaction dt => exact (pass s dt).kept (.ite fun _ => .of_eq rfl)
  case barredCsnRise dt => exact (pass s dt).kept (.ite fun _ => .of_eq rfl)
  case nop dt p => exact (pass s dt).kept (.hostStep (.of_eq rfl))
  case unknownCommand dt p => exact (pass s dt).kept (.hostStep (.of_eq rfl))
  case post dt p => exact (pass s dt).kept (.hostStep (.closeCommand (.of_eq (State.presentPost_driver _))))
  case take dt p => exact (pass s dt).kept (.hostStep (.closeCommand (.of_eq (State.presentTake_driver _))))
  case reap dt p => exact (pass s dt).kept (.hostStep (.closeCommand (.of_eq (State.presentReap_driver _))))
  case status dt p => exact (pass s dt).kept (.hostStep (.of_eq (State.closeStatus_driver _)))
  case peer dt p => exact (pass s dt).kept (.hostStep (.of_eq rfl))
  case cancel dt p => exact (pass s dt).kept (.hostStep (.closeCommand (.of_eq (State.cancelTag_driver ..))))
  case flush dt p => exact (pass s dt).kept (.hostStep (.closeCommand (.of_eq (State.flushAll_driver _))))
  case leave dt p => exact (pass s dt).kept (.hostStep (.closeCommand (.of_eq (State.presentLeave_driver _))))
  case rejoin dt p => exact (pass s dt).kept (.hostStep (.closeCommand (.of_eq (State.presentRejoin_driver _))))
  case restart dt p => exact (pass s dt).kept (.hostStep (.closeCommand (.restart _)))
  case startEdge dt => exact (pass s dt).kept (.of_eq (State.startEdge_driver _))
  case firstRecessiveSample dt => exact (pass s dt).kept (.ite fun _ => .of_eq rfl)
  case dominantSample dt => exact (pass s dt).kept (.ite fun _ => .of_eq rfl)

/-! ## The two commands that can begin one (R52, R90) -/

section
variable {s t : State}

/-- A line that is idle shows 4 T of quiet, with nothing being received (R52, R90). -/
theorem State.lineIdle_iff :
    s.lineIdle = true ↔ 64 ≤ s.quiet.elapsed ∧ s.asm.cond = .idle ∧ s.rx.cond ≠ .receiving := by
  simp [State.lineIdle, Config.settleGap, and_assoc]

/-- A refused request leaves the rotation controller and the driver. -/
theorem State.notStarted_frame (s : State) (e : TxEntry) :
    (s.notStarted e).rot = s.rot ∧ (s.notStarted e).driver = s.driver := by
  rw [State.notStarted, State.returnEntry_frame]
  exact ⟨rfl, rfl⟩

/-- An own turn leaves rotation controller and driver, or the conditions of R52 are met and a frame begins at this
instant. -/
theorem State.ownTurn_cases (s : State) :
    (s.ownTurn.rot = s.rot ∧ s.ownTurn.driver = s.driver) ∨
      (s.rot.leaving = false ∧ s.lineIdle = true ∧ (∃ e, offer s.txq = some e) ∧
        s.ownTurn.rot = s.rot.ownFrameBegun ∧ s.ownTurn.driver.charStart = s.now) := by
  unfold State.ownTurn
  split
  · rename_i h
    split
    · rename_i e he
      unfold State.requestEntry
      split
      · refine .inr ⟨h.1, h.2, ⟨e, he⟩, ?_, ?_⟩ <;> rw [State.startEntry_eq, State.beginFrame_eq]
      · exact .inl (s.notStarted_frame e)
    · exact .inl ⟨rfl, rfl⟩
  · exact .inl ⟨rfl, rfl⟩

/-- A slot start that begins a frame is that of an own slot, in which the conditions of R52 are met. -/
theorem State.slotStart_driver (s : State) (i : Nat) :
    s.DriverKept (s.slotStart i) ∨
      (s.rot.leaving = false ∧ s.rot.ownsSlot s.straps.highest s.straps.own i = true ∧
        (s.slotStart i).rot.slotIndex = i ∧ s.lineIdle = true ∧ (∃ e, offer s.txq = some e) ∧
        (s.slotStart i).driver.charStart = s.now) := by
  unfold State.slotStart
  dsimp only
  split
  · rename_i hown
    rcases (s.setRot (s.rot.takeSlot i)).ownTurn_cases with ⟨-, hdriver⟩ | ⟨hleaving, hidle, he, hrot, hstart⟩
    · exact .inl (.of_eq hdriver)
    · exact .inr ⟨hleaving, hown, by rw [hrot]; rfl, hidle, he, hstart⟩
  · exact .inl (.of_eq rfl)

/-- The window start of a pending answer begins its frame at its instant, with the line idle, or none. -/
theorem State.answerWindow_driver (s : State) (p : PendingAnswer) :
    s.DriverKept (s.answerWindow p) ∨
      (s.now = p.windowStart ∧ s.lineIdle = true ∧ (s.answerWindow p).now = s.now ∧
        (s.answerWindow p).quiet = s.quiet ∧ (s.answerWindow p).driver.charStart = s.now) := by
  unfold State.answerWindow
  split
  · rename_i h
    exact .inr ⟨h.1, h.2.1, rfl, rfl, rfl⟩
  · exact .inl (.of_eq rfl)

theorem exec_slotStart_driver (e : exec .slotStart s = .next t) :
    t.driver.cond = .driving → drivesOn s t ∨
      (s.rot.station = .active ∧ s.rot.position = .slot ∧ s.rot.leaving = false ∧
        (s.rot.base + t.rot.slotIndex) % (s.straps.highest + 1) = s.straps.own ∧
        t.rot.slotIndex ≤ s.straps.highest ∧ s.asm.cond = .idle ∧ s.rx.cond ≠ .receiving ∧
        64 ≤ t.quiet.elapsed ∧ (∃ e, offer s.txq = some e) ∧ t.driver.charStart = t.now) := by
  simp only [exec, execSlotStart] at e
  injection e with e
  subst e
  split
  · rename_i h
    intro hd
    rcases State.slotStart_driver _ _ with hkept | ⟨hleaving, hown, hindex, hidle, he, hstart⟩
    · exact .inl ((State.DriverGoesOn.run s _).kept hkept hd)
    · have hclock := State.slotStart_clockView (s.runTo (s.rot.baseTime + Config.slotTime * s.rot.upcomingSlot s.now))
        (s.rot.upcomingSlot s.now)
      simp only [State.clockView, Prod.mk.injEq] at hclock
      obtain ⟨hnow, -, -, hquiet⟩ := hclock
      obtain ⟨hq, ha, hrx⟩ := State.lineIdle_iff.1 hidle
      obtain ⟨hi, hslot⟩ := of_decide_eq_true hown
      exact .inr ⟨h.1, h.2.1, hleaving, by rw [hindex]; exact hslot, by rw [hindex]; exact hi, ha, hrx,
        hquiet ▸ hq, he, hstart.trans hnow.symm⟩
  · exact fun hd => .inl (State.DriverGoesOn.refl s hd)

theorem exec_answerWindowStart_driver (e : exec .answerWindowStart s = .next t) :
    t.driver.cond = .driving → drivesOn s t ∨
      ((∃ p, s.pend = some p ∧ p.phase = .due ∧ t.now = p.windowStart) ∧
        s.asm.cond = .idle ∧ s.rx.cond ≠ .receiving ∧ 64 ≤ t.quiet.elapsed ∧ t.driver.charStart = t.now) := by
  simp only [exec, execAnswerWindowStart] at e
  injection e with e
  subst e
  split
  · rename_i p hp
    split
    · rename_i hdue
      intro hd
      rcases (s.runTo p.windowStart).answerWindow_driver p with hkept | ⟨hat, hidle, hnow, hquiet, hstart⟩
      · exact .inl ((State.DriverGoesOn.run s _).kept hkept hd)
      · obtain ⟨hq, ha, hrx⟩ := State.lineIdle_iff.1 hidle
        exact .inr ⟨⟨p, hp, hdue, hnow.trans hat⟩, ha, hrx, hquiet ▸ hq, hstart.trans hnow.symm⟩
    · exact fun hd => .inl (State.DriverGoesOn.refl s hd)
  · exact fun hd => .inl (State.DriverGoesOn.refl s hd)

end

/-- Settles O58: a slot start and a window start can begin a frame, and every other command lets the driver go on. -/
theorem theDriverStartsOnlyInItsTurn : Obligations.TheDriverStartsOnlyInItsTurn := by
  intro c s t e hd
  by_cases hslot : c = .slotStart
  · subst hslot
    exact (exec_slotStart_driver e hd).imp_right fun h => .inl ⟨rfl, h⟩
  · by_cases hanswer : c = .answerWindowStart
    · subst hanswer
      exact (exec_answerWindowStart_driver e hd).imp_right fun h => .inr ⟨rfl, h⟩
    · exact .inl (exec_driverGoesOn e hslot hanswer hd)

end Sys2Proof.Machine
end

section
/-! Slots that pass, the three rests, and the end of the rotation's window. -/

namespace Sys2Proof.Machine

open Sys2Proof

/-! ## Slots that pass (R39, R52, R53) -/

section
variable {s : State} {i : Nat}

/-- The next slot start, while it is one of the rotation's. -/
theorem exec_slotStart_taken (hactive : s.rot.station = .active) (hslot : s.rot.position = .slot)
    (hcomes : slotComes s i) (hi : i ≤ s.straps.highest + 2) :
    exec .slotStart s = .next ((s.runTo (s.rot.baseTime + 384 * i)).slotStart i) := by
  refine congrArg Host.Outcome.next ?_
  rw [slotComes_upcoming hcomes]
  exact if_pos ⟨hactive, hslot, hi⟩

/-- Beyond the second rest slot there is none. -/
theorem exec_slotStart_none (hcomes : slotComes s i) (hi : s.straps.highest + 2 < i) : exec .slotStart s = .next s := by
  refine congrArg Host.Outcome.next ?_
  rw [slotComes_upcoming hcomes]
  exact if_neg fun h => absurd h.2.2 (Nat.not_le.2 hi)

/-- A slot's start takes the slot, whatever the own-turn test then finds. -/
theorem State.slotStart_taken (s : State) (i : Nat) :
    (s.slotStart i).now = s.now ∧ (s.slotStart i).rot.slotIndex = i ∧ (s.slotStart i).rot.nextSlot = i + 1 := by
  have hclock := s.slotStart_clockView i
  simp only [State.clockView, Prod.mk.injEq] at hclock
  refine ⟨hclock.1, ?_⟩
  unfold State.slotStart
  dsimp only
  split
  · rcases (s.setRot (s.rot.takeSlot i)).ownTurn_cases with ⟨hrot, -⟩ | ⟨-, -, -, hrot, -⟩ <;>
      rw [hrot] <;> exact ⟨rfl, rfl⟩
  · exact ⟨rfl, rfl⟩

/-- An own turn in which a condition of R52 fails does nothing (R53). -/
theorem State.ownTurn_passes (h : s.rot.leaving = true ∨ ¬ s.lineIdle = true ∨ offer s.txq = none) :
    s.ownTurn = s := by
  unfold State.ownTurn
  split
  · rename_i hopen
    obtain ⟨hleaving, hidle⟩ := hopen
    have hoffer : offer s.txq = none := (h.resolve_left (by simp [hleaving])).resolve_left (not_not.2 hidle)
    rw [hoffer]
  · rfl

/-- A slot that is not this station's, or in which a condition of R52 fails, is taken and passes. -/
theorem State.slotStart_passes
    (h : ¬ s.rot.ownsSlot s.straps.highest s.straps.own i = true ∨ s.rot.leaving = true ∨ ¬ s.lineIdle = true ∨
      offer s.txq = none) : s.slotStart i = s.setRot (s.rot.takeSlot i) := by
  unfold State.slotStart
  dsimp only
  split
  · rename_i hown
    exact State.ownTurn_passes (s := s.setRot (s.rot.takeSlot i)) (h.resolve_left (not_not.2 hown))
  · rfl

end

/-- Settles O23: the slot start that comes next is taken, and an own turn that passes (`State.ownTurn_passes`) changes
nothing after it. -/
theorem slotPasses : Obligations.SlotPasses := by
  rintro s u i hactive hslot hcomes rfl
  refine ⟨fun hi => ?_, exec_slotStart_none hcomes, fun hi hpasses => ?_⟩
  · obtain ⟨hnow, hindex, hnext⟩ := (s.runTo (s.rot.baseTime + 384 * i)).slotStart_taken i
    refine ⟨_, exec_slotStart_taken hactive hslot hcomes hi, ?_, hindex, hnext⟩
    obtain ⟨-, hahead, -⟩ := hcomes
    rw [hnow, State.runTo_now, Nat.max_eq_right hahead]
  · rw [exec_slotStart_taken hactive hslot hcomes hi]
    refine congrArg Host.Outcome.next (State.slotStart_passes ?_)
    simp only [Rotation.ownsSlot, State.lineIdle_iff, decide_eq_true_eq]
    rcases hpasses with h | h | h | h | h | h | h
    · exact .inl fun g => absurd g.1 (Nat.not_le.2 h)
    · exact .inl fun g => h g.2
    · exact .inr (.inl h)
    · exact .inr (.inr (.inl fun g => absurd g.1 (Nat.not_le.2 h)))
    · exact .inr (.inr (.inl fun g => h g.2.1))
    · exact .inr (.inr (.inl fun g => g.2.2 h))
    · exact .inr (.inr (.inr h))

/-! ## The rests (R40, R41) -/

section
variable {s : State} {n : Nat}

/-- Once the samples to it have passed, the quiet timer shows `n` (assumption log 27). -/
theorem State.quiet_reached (hr : s.lineRuns = true) (hn : n ≤ 65535) {d : Nat} (hd : samplesToQuiet s n ≤ d) :
    n ≤ (s.advance d).quiet.elapsed :=
  (State.quiet_advance_iff s n d hr hn).2 hd

/-- Before that it does not. -/
theorem State.quiet_notReached (hr : s.lineRuns = true) (hn : n ≤ 65535) {k : Nat} (hk : k < samplesToQuiet s n) :
    (s.advance k).quiet.elapsed < n :=
  not_le.1 fun hge => absurd ((State.quiet_advance_iff s n k hr hn).1 hge) (not_le.2 hk)

end

/-- Settles O26: each rest is `Rotation.rest` at its instant, which comes with the first sample at which its quiet is
shown (`State.quiet_reached`, `State.quiet_notReached`). -/
theorem restsAreReached : Obligations.RestsAreReached := by
  refine ⟨?_, fun s hrst hvalid hactive hdue => ?_, ?_⟩
  · rintro s u hactive hslot rfl
    exact congrArg Host.Outcome.next (if_pos ⟨hactive, hslot⟩)
  · have hr := State.lineRuns_of hrst hvalid
    have hexec : exec .restDueRest s = .next
        { s.advance (samplesToQuiet s 768) with rot := restTaken s.rot (s.now + samplesToQuiet s 768) } :=
      congrArg Host.Outcome.next (if_pos ⟨hr, hactive, hdue⟩)
    exact ⟨_, hexec, State.quiet_reached hr (by decide) le_rfl, fun k => State.quiet_notReached hr (by decide), rfl⟩
  · rintro s d q hrst hvalid hlisten hH hq rfl
    have hr := State.lineRuns_of hrst hvalid
    have hexec : exec .quietMeasurementRest s = .next
        { s.advance (max (samplesToQuiet s q) (s.rot.listenEntry + q - s.now)) with
          rot := restTaken s.rot (s.now + max (samplesToQuiet s q) (s.rot.listenEntry + q - s.now)) } := by
      subst hq
      exact congrArg Host.Outcome.next (if_pos ⟨hr, hlisten⟩)
    refine ⟨_, hexec, State.quiet_reached hr (by omega) (le_max_left ..), ?_, fun k hk => ?_, rfl⟩
    · simp only [State.advance_now]
      omega
    · rcases lt_max_iff.1 hk with hk | hk
      · exact .inl (State.quiet_notReached hr (by omega) hk)
      · exact .inr (by omega)

/-! ## The end of the rotation's window (R47) -/

/-- A character of the window is being received. -/
theorem Receiver.inWindowChar_iff (r : Receiver) (e : Nat) :
    r.inWindowChar e = true ↔ r.cond = .receiving ∧ e < r.startInstant ∧ r.startInstant < e + 448 := by
  simp [Receiver.inWindowChar, inWindow]

/-- Settles O27: the window waits for a character of its own (`Receiver.inWindowChar_iff`), and passes without. -/
theorem rotationWindowEndResult : Obligations.RotationWindowEndResult := by
  rintro s u e hactive hwindow htracked rfl
  have hexec : exec .rotationWindowEnd s = .next
      (if s.rx.inWindowChar e = true then s.runTo (e + 448)
      else (s.runTo (e + 448)).setRot (s.rot.passWindow (s.runTo (e + 448)).now)) := by
    simp only [exec, execRotationWindowEnd, htracked]
    exact congrArg Host.Outcome.next (if_pos ⟨hactive, hwindow⟩)
  rw [hexec]
  simp only [Receiver.inWindowChar_iff]
  rfl

end Sys2Proof.Machine
end

section
/-! The end of a good frame that the watch does not hold: ANSWER frames, and DATA frames that the answer unit takes. -/

namespace Sys2Proof.Machine

open Sys2Proof

/-! ## The rotation controller at a good ANSWER (R46, R48, R49, R58) -/

section
variable {r : Rotation} {f : Frame} {h : Nat}

/-- A window held for placement, and a frame of it. -/
theorem Rotation.belongs_held {start e : Nat}
    (hheld : r.station = .listen ∨ r.position = .window ∨ r.position = .frame ∧ r.marker = true)
    (ht : r.tracked = some e) (hin : inWindowOf e start) : r.belongs start = true := by
  have hwindow : r.heldWindow = some e := (if_pos hheld).trans ht
  simp only [Rotation.belongs, hwindow]
  exact (inWindow_iff e start).2 hin

/-- A frame outside every held window. -/
theorem Rotation.belongs_none {start : Nat}
    (hout : (∀ e, r.tracked = some e → ¬ inWindowOf e start) ∨
      r.station = .active ∧ r.position ≠ .window ∧ (r.position = .frame → r.marker = false)) :
    ¬ r.belongs start = true := by
  unfold Rotation.belongs Rotation.heldWindow
  rcases hout with hout | ⟨hactive, hwindow, hframe⟩
  · split
    · rename_i e he
      split at he
      · exact mt (inWindow_iff e start).1 (hout e he)
      · cases he
    · exact Bool.false_ne_true
  · rw [if_neg (by simp only [hactive, hwindow, reduceCtorEq, false_or, not_and]; exact fun g => by simp [hframe g])]
    exact Bool.false_ne_true

/-- A misplaced ANSWER is counted, and puts an ACTIVE station into LISTEN (R48). -/
theorem Rotation.misplaced_active (ha : r.station = .active) (t : Nat) : r.misplaced t = damageTaken r t := by
  rw [Rotation.misplaced, if_pos ha, ← Rotation.onDamage_eq, Rotation.onDamage, ha]

theorem Rotation.onGoodFrame_answer (hk : f.kind = .answer) : answerTaken r (r.onGoodFrame h f) f := by
  have hanswer (hline : r.station = .listen ∨ r.station = .active) :
      r.onGoodFrame h f =
        if r.belongs f.start = true then r.beginSlots (f.fin + Config.windowOpen)
        else if f.own = true then r else r.misplaced f.fin := by
    simp only [Rotation.onGoodFrame, hk, (Rotation.onLine_iff r).2 hline, if_true]
  refine ⟨fun hoff => Rotation.onGoodFrame_offLine _ (Rotation.onLine_false hoff),
    fun hline e hheld ht h1 h2 => ?_, fun hline hout => ?_⟩
  · rw [hanswer hline, if_pos (Rotation.belongs_held hheld ht ⟨h1, h2⟩)]
    rfl
  · rw [hanswer hline, if_neg (Rotation.belongs_none hout)]
    refine ⟨fun ho => if_pos ho, fun ho ha => ?_, fun ho hl => ?_⟩
    · rw [if_neg (by simp [ho]), Rotation.misplaced_active ha]
    · rw [if_neg (by simp [ho]), Rotation.misplaced, if_neg (by simp [hl])]
      rfl

end

/-- Settles O17: an ANSWER that the watch does not hold is offered to no block, and the rotation controller alone takes
it (`Rotation.onGoodFrame_answer`). -/
theorem goodAnswerEnd : Obligations.GoodAnswerEnd := by
  intro o s f hends hk hw
  have hoffer (u : State) : u.offerFrame f = u := by simp [State.offerFrame, hk]
  refine ⟨s.rot.onGoodFrame s.straps.highest f, ?_, Rotation.onGoodFrame_answer hk⟩
  rw [exec_characterDelivered_good o hends,
    State.goodFrame_notOffered (s := atFrameEnd s) o hw (hoffer _) (hoffer _)]
  rfl

/-! ## The addressee's decision (R86, R88, R89) -/

section
variable {s : State} {f : Frame}

/-- An answer that becomes DUE, at the rotation controller. -/
theorem dueTaken_eq (r : Rotation) (p : Option PendingAnswer) :
    (if p.isSome = true then r.answerEnded else r).answerDue = dueTaken r p := by
  cases p with
  | none => rfl
  | some p => simp only [dueTaken, ← Rotation.answerEnded_eq]; rfl

/-- The state in which an answer of the given code is DUE. -/
def withAnswer (u : State) (f : Frame) (code : AnswerCode) : State :=
  { u with pend := some { phase := .due, sender := f.sender, seq := f.seq, code := code, windowStart := f.fin + 64 } }

/-- The state in which a DATA has been accepted: its record made, and the acceptance claim taken (R88, R80). -/
def accepted (s : State) (f : Frame) (linkNew : Bool) : State :=
  { recorded s f (.data f.seq linkNew) with
    peers := s.peers.modify f.sender fun p => { p with rxExpect := some (f.seq + 1), rxLastFresh := f.fresh } }

theorem State.answerDue_dueTaken (s : State) (f : Frame) (code : AnswerCode) :
    s.answerDue f code = (withAnswer s f code).setRot (dueTaken s.rot s.pend) := by
  rw [State.answerDue_eq, dueTaken_eq]
  rfl

theorem State.takeOrBusy_room (hroom : roomFor s f) (linkNew : Bool) :
    s.takeOrBusy f linkNew = (withAnswer (accepted s f linkNew) f .taken).setRot (dueTaken s.rot s.pend) := by
  rw [State.takeOrBusy, if_pos ((State.hasRoom_iff s f).2 hroom), State.acceptData, State.answerDue_dueTaken]
  rfl

theorem State.takeOrBusy_full (hroom : ¬ roomFor s f) (linkNew : Bool) :
    s.takeOrBusy f linkNew = (withAnswer s f .busy).setRot (dueTaken s.rot s.pend) := by
  rw [State.takeOrBusy, if_neg (mt (State.hasRoom_iff s f).1 hroom), State.answerDue_dueTaken]

/-- A DATA to take into account, with room and without (R86). -/
theorem dataTaken_asks {linkNew : Bool}
    (hc : classify (s.peer f.sender) f.seq f.fresh = if linkNew = true then .newLink else .next) :
    (roomFor s f → dataTaken s (withAnswer (accepted s f linkNew) f .taken) f) ∧
      (¬ roomFor s f → dataTaken s (withAnswer s f .busy) f) := by
  refine ⟨fun hroom => ⟨.taken, accepted s f linkNew, rfl, fun h => absurd rfl h, ?_⟩,
    fun hroom => ⟨.busy, s, rfl, fun _ => rfl, ?_⟩⟩
  · cases linkNew <;> rw [hc] <;> exact ⟨fun h => absurd hroom h, fun _ => ⟨rfl, rfl⟩⟩
  · cases linkNew <;> rw [hc] <;> exact ⟨fun _ => rfl, fun h => absurd h hroom⟩

/-- The decision in LISTEN or ACTIVE: the answer unit does the same whatever the rotation controller holds, and an
answer becomes DUE there. -/
theorem State.decideAnswer_taken (s : State) (f : Frame) :
    ∃ u, dataTaken s u f ∧ u.straps = s.straps ∧
      ∀ r : Rotation, r.onLine = true → (s.setRot r).decideAnswer f = u.setRot (dueTaken r s.pend) := by
  have hpeer (r : Rotation) : (s.setRot r).peer f.sender = s.peer f.sender := rfl
  have hasks (linkNew : Bool)
      (hc : classify (s.peer f.sender) f.seq f.fresh = if linkNew = true then .newLink else .next) :
      ∃ u, dataTaken s u f ∧ u.straps = s.straps ∧
        ∀ r : Rotation, (s.setRot r).takeOrBusy f linkNew = u.setRot (dueTaken r s.pend) := by
    by_cases hroom : roomFor s f
    · exact ⟨_, (dataTaken_asks hc).1 hroom, rfl, fun r => State.takeOrBusy_room (s := s.setRot r) hroom linkNew⟩
    · exact ⟨_, (dataTaken_asks hc).2 hroom, rfl, fun r => State.takeOrBusy_full (s := s.setRot r) hroom linkNew⟩
  simp only [State.decideAnswer, hpeer, State.setRot_rot]
  cases hc : classify (s.peer f.sender) f.seq f.fresh with
  | duplicate =>
    exact ⟨withAnswer s f .takenAgain, ⟨_, s, rfl, fun _ => rfl, by rw [hc]⟩, rfl,
      fun r hr => (if_pos hr).trans ((s.setRot r).answerDue_dueTaken f _)⟩
  | stray =>
    exact ⟨withAnswer s f .outOfStep, ⟨_, s, rfl, fun _ => rfl, by rw [hc]⟩, rfl,
      fun r hr => (if_pos hr).trans ((s.setRot r).answerDue_dueTaken f _)⟩
  | next =>
    obtain ⟨u, hdata, hstraps, hu⟩ := hasks false hc
    exact ⟨u, hdata, hstraps, fun r hr => (if_pos hr).trans (hu r)⟩
  | newLink =>
    obtain ⟨u, hdata, hstraps, hu⟩ := hasks true hc
    exact ⟨u, hdata, hstraps, fun r hr => (if_pos hr).trans (hu r)⟩

end

/-! ## An answer that becomes DUE, at the rotation controller (R59, R61, R89) -/

section
variable {r : Rotation} {earlier : Option PendingAnswer} {h : Nat} {f : Frame}

/-- The superseded answer's end withdraws a station that leaves and has nothing else in progress (assumption log 13). -/
theorem dueTaken_ends (hline : r.station = .listen ∨ r.station = .active)
    (hends : earlier ≠ none ∧ r.leaving = true ∧ r.ownFrame = false ∧ r.answerWatch = false) :
    dueTaken r earlier = { withdrawn r with answer := true } := by
  obtain ⟨hearlier, hleaving, hframe, hwatch⟩ := hends
  have hafter : afterActivity { r with answer := false } = withdrawn { r with answer := false } :=
    if_pos ⟨hleaving, hframe, hwatch, rfl, hline⟩
  rw [dueTaken, if_neg hearlier, hafter]
  rfl

/-- In every other case the answer activity is all that changes. -/
theorem dueTaken_stays
    (hstays : ¬ (earlier ≠ none ∧ r.leaving = true ∧ r.ownFrame = false ∧ r.answerWatch = false)) :
    dueTaken r earlier = { r with answer := true } := by
  unfold dueTaken
  split
  · rfl
  · rename_i hearlier
    rw [show afterActivity { r with answer := false } = { r with answer := false } from
      if_neg fun g => hstays ⟨hearlier, g.1, g.2.1, g.2.2.1⟩]

/-- The activities play no part in an anchoring. -/
theorem anchoredByData_answer (r : Rotation) (h : Nat) (f : Frame) (b : Bool) :
    anchoredByData { r with answer := b } h f = { anchoredByData r h f with answer := b } := by
  unfold anchoredByData
  split <;> rfl

/-- An anchoring by DATA in LISTEN or ACTIVE: the station is ACTIVE, its activities and leaving-pending as they were. -/
theorem anchoredByData_onLine (hline : r.station = .listen ∨ r.station = .active) :
    (anchoredByData r h f).station = .active ∧ (anchoredByData r h f).leaving = r.leaving ∧
      (anchoredByData r h f).ownFrame = r.ownFrame ∧ (anchoredByData r h f).answerWatch = r.answerWatch := by
  rw [anchoredByData, if_pos hline]
  exact ⟨rfl, rfl, rfl, rfl⟩

/-- A station that has withdrawn is not anchored (R58). -/
theorem anchoredByData_withdrawn (hs : r.station = .withdrawn) : anchoredByData r h f = r := if_neg (by simp [hs])

end

/-! ## The order of the rotation controller and the offer (R30, R61) -/

section
variable {s : State} {f : Frame}

/-- With a watch that does not hold the frame, the offer comes first in one of the four orders. -/
theorem State.goodFrame_order (o : EndOrder) (hw : ¬ holdsFrame s.watch f) :
    s.goodFrame o f =
      if o.rotationFirst = false ∧ o.offerFirst = true then (s.offerFrame f).rotateFrame f
      else (s.rotateFrame f).offerFrame f := by
  have hstill (u : State) (hu : u.watch = s.watch) : u.watchFrameEnd f = u :=
    State.watchFrameEnd_notHeld (hu.symm ▸ hw)
  have hoffer (u : State) : (u.offerFrame f).watch = u.watch := by rw [State.offerFrame_frame]
  obtain ⟨rotationFirst, offerFirst⟩ := o
  cases rotationFirst <;> cases offerFirst <;> simp only [State.goodFrame, if_true, Bool.false_eq_true, if_false]
  · rw [hstill s rfl]; rfl
  · rw [hstill (s.offerFrame f) (hoffer _)]; rfl
  · rw [hstill (s.rotateFrame f) rfl]; rfl
  · rw [hstill ((s.rotateFrame f).offerFrame f) (hoffer _)]; rfl

/-- A DATA from another station to this one goes to the addressee's decision (R85). -/
theorem State.offerFrame_data (hk : f.kind = .data) (ho : f.own = false) (hs : f.sameNumber = false)
    (hdest : f.dest = s.straps.own) : s.offerFrame f = s.decideAnswer f := by
  simp [State.offerFrame, hk, ho, hs, hdest]

end

/-- Settles O15: the answer unit's part is the same in every order (`State.decideAnswer_taken`), and the rotation
controller takes the frame before or after the answer becomes DUE. -/
theorem addresseeDecides : Obligations.AddresseeDecides := by
  intro o s f ends hends hk hw ho hs hdest hline hiff
  obtain ⟨u, hdata, hstraps, hdecide⟩ := (atFrameEnd s).decideAnswer_taken f
  have hrotate (t : State) : t.rotateFrame f = t.setRot (anchoredByData t.rot t.straps.highest f) := by
    rw [← Rotation.onGoodFrame_data _ hk]; rfl
  have hoffer (r : Rotation) (hr : r.station = .listen ∨ r.station = .active) :
      ((atFrameEnd s).setRot r).offerFrame f = u.setRot (dueTaken r s.pend) :=
    (State.offerFrame_data (s := (atFrameEnd s).setRot r) hk ho hs hdest).trans
      (hdecide r ((Rotation.onLine_iff r).2 hr))
  obtain ⟨hactive, hleaving, hframe, hwatch⟩ := anchoredByData_onLine (h := s.straps.highest) (f := f) hline
  have hdue : (atFrameEnd s).goodFrame o f = u.setRot
      (if o.rotationFirst = false ∧ o.offerFirst = true then
        anchoredByData (dueTaken s.rot s.pend) s.straps.highest f
      else dueTaken (anchoredByData s.rot s.straps.highest f) s.pend) := by
    rw [State.goodFrame_order (s := atFrameEnd s) o hw]
    split
    · have hfirst : (atFrameEnd s).offerFrame f = u.setRot (dueTaken s.rot s.pend) := hoffer s.rot hline
      rw [hfirst, hrotate, State.setRot_straps, hstraps]
      rfl
    · rw [hrotate]
      exact hoffer _ (.inr hactive)
  refine ⟨u, _, (exec_characterDelivered_good o hends).trans (congrArg _ hdue), hdata, fun hnot => ?_,
    fun hyes hrot hofr => ?_, fun hyes horder => ?_⟩
  · rw [dueTaken_stays (mt hiff.2 hnot), dueTaken_stays (by rw [hleaving, hframe, hwatch]; exact mt hiff.2 hnot),
      anchoredByData_answer, ite_self]
  · rw [if_pos ⟨hrot, hofr⟩, dueTaken_ends hline (hiff.1 hyes), anchoredByData_withdrawn rfl]
  · rw [if_neg (by rcases horder with h | h <;> simp [h]),
      dueTaken_ends (.inr hactive) (by rw [hleaving, hframe, hwatch]; exact hiff.1 hyes)]

end Sys2Proof.Machine
end

section
/-! The end of the last activity with leaving-pending set: every report that ends it withdraws the station. -/

namespace Sys2Proof.Machine

open Sys2Proof

/-! ## The withdrawal (R61) -/

/-- The rotation controller of a station that has withdrawn with a cause: no leaving-pending, no anchor, no position and
no window, the change flag set, and no activity in progress. -/
def hasWithdrawn (r : Rotation) (c : WithdrawCause) : Prop :=
  r.station = .withdrawn ∧ r.cause = c ∧ r.leaving = false ∧ r.anchored = false ∧ r.position = .unplaced ∧
    r.tracked = none ∧ r.changeFlag = true ∧ r.setSinceSnapshot = true ∧ r.ownFrame = false ∧
    r.answerWatch = false ∧ r.answer = false

/-- A station that is to leave and has no activity in progress but, it may be, the answer watch. -/
def onlyWatching (r : Rotation) : Prop :=
  r.leaving = true ∧ (r.station = .listen ∨ r.station = .active) ∧ r.ownFrame = false ∧ r.answer = false

section
variable {r : Rotation} {c : WithdrawCause}

theorem afterActivity_withdraws (hleaving : r.leaving = true) (hline : r.station = .listen ∨ r.station = .active)
    (hframe : r.ownFrame = false) (hwatch : r.answerWatch = false) (hanswer : r.answer = false) :
    hasWithdrawn (afterActivity r) .request := by
  rw [show afterActivity r = withdrawn r from if_pos ⟨hleaving, hframe, hwatch, hanswer, hline⟩]
  exact ⟨rfl, rfl, rfl, rfl, rfl, rfl, rfl, rfl, hframe, hwatch, hanswer⟩

/-- The end of the watch activity withdraws a station that only watches. -/
theorem watchEnded_withdraws (w : onlyWatching r) : hasWithdrawn (watchEnded r) .request := by
  obtain ⟨hleaving, hline, hframe, hanswer⟩ := w
  exact afterActivity_withdraws hleaving hline hframe rfl hanswer

/-- Damage leaves such a station in LISTEN, its activities as they were (R50). -/
theorem onlyWatching_damageTaken (w : onlyWatching r) (t : Nat) : onlyWatching (damageTaken r t) := by
  obtain ⟨hleaving, hline, hframe, hanswer⟩ := w
  unfold damageTaken
  rcases hline with hline | hline <;> rw [hline]
  · exact ⟨hleaving, .inl rfl, hframe, hanswer⟩
  · exact ⟨hleaving, .inl rfl, hframe, hanswer⟩

/-- A window that passes touches neither station nor activities (R47). -/
theorem onlyWatching_windowPassed (w : onlyWatching r) (start T : Nat) : onlyWatching (windowPassed r start T) := by
  unfold windowPassed
  split
  · split <;> exact w
  · exact w

/-- A good frame leaves the station in LISTEN or ACTIVE, its activities as they were (R43, R44, R46, R48). -/
theorem onlyWatching_onGoodFrame (w : onlyWatching r) (h : Nat) (f : Frame) : onlyWatching (r.onGoodFrame h f) := by
  obtain ⟨hleaving, hline, hframe, hanswer⟩ := w
  unfold Rotation.onGoodFrame
  rw [if_pos ((Rotation.onLine_iff r).2 hline)]
  split
  · exact ⟨hleaving, .inr rfl, hframe, hanswer⟩
  · exact ⟨hleaving, .inr rfl, hframe, hanswer⟩
  · split
    · exact ⟨hleaving, .inr rfl, hframe, hanswer⟩
    · split
      · exact ⟨hleaving, hline, hframe, hanswer⟩
      · unfold Rotation.misplaced
        split
        · exact ⟨hleaving, .inl rfl, hframe, hanswer⟩
        · exact ⟨hleaving, hline, hframe, hanswer⟩

/-- No window passes and no frame is taken once the station has withdrawn (R58). -/
theorem hasWithdrawn.windowPassed_eq (w : hasWithdrawn r c) (start T : Nat) : windowPassed r start T = r :=
  windowPassed_offLine (by simp [w.1]) start T

theorem hasWithdrawn.onLine_false (w : hasWithdrawn r c) : r.onLine = false := Rotation.onLine_false (.inl w.1)

end

/-! ## The emitted report of a CAST and of an ANSWER -/

section
variable {s : State}

theorem State.emittedReport_cast_rot (s : State) (ref : Nat) :
    (s.emittedReport (.transmit ref .cast)).rot =
      afterActivity { s.rot with faultCount := s.rot.faultCount - 1, ownFrame := false } := by
  rw [State.emittedReport, State.conclude_frame, ← Rotation.onEmitted_cast]
  rfl

/-- The emitted report of the last activity's frame. -/
theorem emittedReport_withdraws {src : FrameSource} (hleaving : s.rot.leaving = true)
    (hline : s.rot.station = .listen ∨ s.rot.station = .active) (hwatch : s.rot.answerWatch = false)
    (hlast : (∃ ref, src = .transmit ref .cast) ∧ s.rot.answer = false ∨
      src = .answer ∧ (∃ p, s.pend = some p ∧ p.phase = .emitting) ∧ s.rot.ownFrame = false) :
    hasWithdrawn (s.emittedReport src).rot .request := by
  rcases hlast with ⟨⟨ref, rfl⟩, hanswer⟩ | ⟨rfl, ⟨p, hp, hphase⟩, hframe⟩
  · rw [State.emittedReport_cast_rot]
    exact afterActivity_withdraws hleaving hline rfl hwatch hanswer
  · rw [State.emittedReport_answer s hp hphase]
    exact afterActivity_withdraws hleaving hline hframe hwatch rfl

/-! ## The lost report (R57) -/

theorem lossTaken_answer (r : Rotation) (kind : FrameKind) (start t : Nat) (b : Bool) :
    { lossTaken r kind start t with answer := b } = lossTaken { r with answer := b } kind start t := by
  unfold lossTaken
  dsimp only
  split
  · rfl
  · split <;> rfl

/-- A lost report that ends the last activity: the eighth fault withdraws with cause FAULTS, any other by request. -/
theorem lossTaken_withdraws {r : Rotation} {kind : FrameKind} (start t : Nat) (hleaving : r.leaving = true)
    (hline : r.station = .listen ∨ r.station = .active) (hwatch : r.answerWatch = false) (hanswer : r.answer = false)
    (hframe : kind ≠ .answer ∨ r.ownFrame = false) :
    hasWithdrawn (afterActivity (lossTaken r kind start t)) (if 8 ≤ r.faultCount + 1 then .faults else .request) := by
  have hended : (if kind = .answer then r.ownFrame else false) = false := by
    split
    · exact hframe.resolve_left (not_not.2 ‹_›)
    · rfl
  unfold lossTaken
  dsimp only
  split
  · rw [afterActivity_offLine rfl]
    exact ⟨rfl, rfl, rfl, rfl, rfl, rfl, rfl, rfl, hended, hwatch, hanswer⟩
  · split
    · exact afterActivity_withdraws hleaving (.inl rfl) hended hwatch hanswer
    · exact afterActivity_withdraws hleaving hline hended hwatch hanswer

theorem lostReport_withdraws {src : FrameSource} (start : Nat) (m : Mismatch) (hleaving : s.rot.leaving = true)
    (hline : s.rot.station = .listen ∨ s.rot.station = .active) (hwatch : s.rot.answerWatch = false)
    (hlast : (∃ ref kind, src = .transmit ref kind ∧ kind ≠ .answer) ∧ s.rot.answer = false ∨
      src = .answer ∧ (∃ p, s.pend = some p ∧ p.phase = .emitting) ∧ s.rot.ownFrame = false) :
    hasWithdrawn (s.lostReport src start m).rot (if 8 ≤ s.rot.faultCount + 1 then .faults else .request) := by
  rcases hlast with ⟨⟨ref, kind, rfl, hkind⟩, hanswer⟩ | ⟨rfl, ⟨p, hp, hphase⟩, hframe⟩
  · rw [State.lostReport_transmit s hkind, State.returnEntry_frame]
    exact lossTaken_withdraws _ _ hleaving hline hwatch hanswer (.inl hkind)
  · rw [State.lostReport_answer s _ _ hp hphase, lossTaken_answer]
    exact lossTaken_withdraws (r := { s.rot with answer := false }) _ _ hleaving hline hwatch rfl (.inr hframe)

/-! ## An answer not started (R91) -/

/-- The window start of a DUE answer whose conditions fail ends the answer. -/
theorem exec_answerWindowStart_notStarted {p : PendingAnswer} (hp : s.pend = some p) (hdue : p.phase = .due)
    (hfails : p.windowStart < s.now ∨ (s.runTo p.windowStart).quiet.elapsed < 64 ∨ s.asm.cond ≠ .idle ∨
      s.rx.cond = .receiving ∨ s.em.cond ≠ .idle) :
    exec .answerWindowStart s = .next (s.runTo p.windowStart).endAnswer := by
  have hnot : ¬ ((s.runTo p.windowStart).now = p.windowStart ∧ (s.runTo p.windowStart).lineIdle = true ∧
      (s.runTo p.windowStart).em.cond = .idle) := by
    rw [State.runTo_now, State.lineIdle_iff, State.runTo_em_cond, State.runTo_asm, State.runTo_rx]
    rintro ⟨hnow, ⟨hq, ha, hrx⟩, hem⟩
    rcases hfails with h | h | h | h | h
    · omega
    · omega
    · exact h ha
    · exact hrx h
    · exact h hem
  simp only [exec, execAnswerWindowStart, hp, hdue, if_true]
  exact congrArg Host.Outcome.next (if_neg hnot)

/-! ## The watch closes (R95, R96, R97) -/

theorem State.closeWatch_rot (s : State) (w : Watched) (r : WatchResult) :
    (s.closeWatch w r).rot = watchEnded s.rot := by
  rw [State.closeWatch_eq]
  rfl

theorem watchTakes_watched {w : Watch} {start : Nat} (h : watchTakes w start) : ∃ x, w.watched = some x := by
  rcases h with ⟨x, e, rfl, -⟩ | ⟨x, e, held, rfl, -⟩ <;> exact ⟨x, rfl⟩

/-- Damage of a frame that the watch takes closes it. -/
theorem State.damageNotice_rot {start : Nat} (h : watchTakes s.watch start) :
    (s.damageNotice start).rot = watchEnded (damageTaken s.rot s.now) := by
  obtain ⟨x, hx⟩ := watchTakes_watched h
  rw [State.damageNotice_eq, State.watchDamage_takes (s := s.setRot (damageTaken s.rot s.now)) hx h,
    State.closeWatch_rot]
  rfl

/-- The window end of an OPEN watch that waits for no character closes it. -/
theorem exec_watchWindowEnd_closes {w : Watched} {e : Nat} (hw : s.watch = .opened w e)
    (hidle : ¬ (s.rx.cond = .receiving ∧ inWindowOf e s.rx.startInstant)) :
    exec .watchWindowEnd s = .next ((s.runTo (e + 448)).closeWatch w .noAnswer) := by
  simp only [exec, execWatchWindowEnd, hw]
  exact congrArg Host.Outcome.next (if_neg (mt (s.rx.inWindowChar_iff e).1 hidle))

/-- A glitch that ends the wait of an OPEN watch past its window end. -/
theorem startGlitch_withdraws {rotationFirst : Bool} {w : Watched} {e : Nat} (hwatching : onlyWatching s.rot)
    (hrst : s.rstLow = false) (hvalid : s.straps.valid = true) (hrx : s.rx.cond = .receiving)
    (hbit : s.rx.bit 0 = true) (hnow : s.now ≤ s.rx.startInstant + 9) (hw : s.watch = .opened w e)
    (hin : inWindowOf e s.rx.startInstant) (hpast : e + 448 ≤ s.rx.startInstant + 9) :
    ∃ t, exec (.startGlitch rotationFirst) s = .next t ∧ hasWithdrawn t.rot .request := by
  obtain ⟨a, r, hr, hcut, hwhole⟩ : ∃ a r, onlyWatching r ∧
      ((s.asm.cond = .inFrame ∧ s.asm.dueInstant + 32 ≤ s.rx.startInstant + 9) →
        r = damageTaken s.rot (s.rx.startInstant + 9) ∧
          a = { s.asm with cond := .discarding, buffer := [], count := 0, expected := none, crc := 0xFFFF }) ∧
      (¬ (s.asm.cond = .inFrame ∧ s.asm.dueInstant + 32 ≤ s.rx.startInstant + 9) → r = s.rot ∧ a = s.asm) := by
    by_cases hc : s.asm.cond = .inFrame ∧ s.asm.dueInstant + 32 ≤ s.rx.startInstant + 9
    · exact ⟨_, _, onlyWatching_damageTaken hwatching _, fun _ => ⟨rfl, rfl⟩, fun h => absurd hc h⟩
    · exact ⟨_, _, hwatching, fun h => absurd h hc, fun _ => ⟨rfl, rfl⟩⟩
  have hclosed := (startGlitchResult rotationFirst s _ _ a r hrst hvalid hrx hbit rfl hnow Iff.rfl hcut hwhole).1 w
    (by rw [hw]; rfl) (.inr ⟨w, e, hw, hin, hpast⟩)
  refine ⟨_, hclosed, ?_⟩
  dsimp only
  split
  · exact watchEnded_withdraws (onlyWatching_windowPassed hr _ _)
  · have hgone := watchEnded_withdraws hr
    exact (hgone.windowPassed_eq _ _).symm ▸ hgone

/-- A truncation of a frame that the watch takes. -/
theorem frameTruncation_withdraws (hwatching : onlyWatching s.rot) (hrst : s.rstLow = false)
    (hvalid : s.straps.valid = true) (ha : s.asm.cond = .inFrame) (hrx : s.rx.cond ≠ .receiving)
    (hw : watchTakes s.watch s.asm.startInstant) :
    ∃ t, exec .frameTruncation s = .next t ∧ hasWithdrawn t.rot .request := by
  refine ⟨_, congrArg Host.Outcome.next (if_pos ⟨State.lineRuns_of hrst hvalid, ha, hrx⟩), ?_⟩
  unfold State.truncate
  rw [State.damageNotice_rot (by exact hw)]
  exact watchEnded_withdraws (onlyWatching_damageTaken hwatching _)

/-! ## A character ends the watch (R95, R96) -/

section
variable {o : EndOrder}

/-- A character ignored, for which an OPEN watch waited past its window end. -/
theorem characterIgnored_withdraws {w : Watched} {e : Nat} (hwatching : onlyWatching s.rot) (htakes : takesCharacter s)
    (ha : s.asm.cond = .discarding) (hw : s.watch = .opened w e) (hin : inWindowOf e s.rx.startInstant)
    (hpast : e + 448 ≤ s.rx.startInstant + 169) :
    ∃ t, exec (.characterDelivered o.rotationFirst o.offerFirst) s = .next t ∧ hasWithdrawn t.rot .request := by
  obtain ⟨hrst, hvalid, hrx, hc, hd⟩ := htakes
  have hwaited : watchWaited s.watch s.rx.startInstant (max s.now (s.rx.startInstant + 169)) :=
    ⟨w, e, hw, hin, le_max_of_le_right hpast⟩
  have hclosed := (characterIgnored o s _ _ hrst hvalid hrx hc (.inr ha) rfl Iff.rfl).2 w ⟨hd, hwaited⟩
    (by rw [hw]; rfl)
  exact ⟨_, hclosed, watchEnded_withdraws hwatching⟩

/-- A character that is damage of a frame that the watch takes. -/
theorem characterDamaged_withdraws {start : Nat} {a : Assembler} (hwatching : onlyWatching s.rot)
    (htakes : takesCharacter s) (hdamage : damageAt s start a) (hw : watchTakes s.watch start) :
    ∃ t, exec (.characterDelivered o.rotationFirst o.offerFirst) s = .next t ∧ hasWithdrawn t.rot .request := by
  obtain ⟨hcond, hdeliver⟩ := damageAt_deliver s.straps.own (atStop s).now hdamage
  refine ⟨_, (exec_characterDelivered_takes o htakes).trans
    (congrArg _ (State.deliver_notice o (s := atStop s) hcond hdeliver)), ?_⟩
  simp only [State.notice]
  rw [State.damageNotice_rot (by exact hw)]
  exact watchEnded_withdraws (onlyWatching_damageTaken hwatching _)

end

/-! ## A good frame that the watch holds (R61, R96) -/

section
variable {f : Frame}

theorem State.watchFrameEnd_held (hw : holdsFrame s.watch f) :
    (s.watchFrameEnd f).rot = watchEnded s.rot ∧ (s.watchFrameEnd f).pend = s.pend := by
  obtain ⟨x, e, held, hx, hheld⟩ := hw
  have hclose : s.watchFrameEnd f = s.closeWatch x (heldResult s.straps.own x held f) := by
    simp only [State.watchFrameEnd, hx]
    exact if_pos hheld.symm
  rw [hclose]
  exact ⟨State.closeWatch_rot .., by rw [State.closeWatch_frame]⟩

/-- A frame that is no DATA to this station begins no answer, and outside LISTEN and ACTIVE none does. -/
theorem State.offerFrame_rot_still
    (h : s.rot.onLine = false ∨ f.kind ≠ .data ∨ f.own = true ∨ f.sameNumber = true ∨ f.dest ≠ s.straps.own) :
    (s.offerFrame f).rot = s.rot := by
  cases hk : f.kind with
  | data =>
    rcases h with h | h | h | h | h
    · rw [State.offerFrame_data_notTaken hk (.inr h)]
    · exact absurd hk h
    · rw [State.offerFrame_ownOrSame (.inl h)]
    · rw [State.offerFrame_ownOrSame (.inr h)]
    · rw [State.offerFrame_data_notTaken hk (.inl h)]
  | cast =>
    unfold State.offerFrame
    split
    · rfl
    · simp only [hk]
      exact State.receiveCast_rot s f
  | answer =>
    unfold State.offerFrame
    split
    · rfl
    · simp only [hk]

/-- The watch closes on the frame it holds, and the station withdraws: the rotation controller and the offer, where it
begins no answer before that, leave it so in every order. -/
theorem goodFrame_withdraws (o : EndOrder) (hwatching : onlyWatching s.rot) (hw : holdsFrame s.watch f)
    (hoffer : o.offerFirst = false ∨ f.kind ≠ .data ∨ f.own = true ∨ f.sameNumber = true ∨ f.dest ≠ s.straps.own) :
    hasWithdrawn (s.goodFrame o f).rot .request := by
  have hclose (u : State) (hu : u.watch = s.watch) (h : onlyWatching u.rot) :
      hasWithdrawn (u.watchFrameEnd f).rot .request := by
    obtain ⟨hrot, -⟩ := State.watchFrameEnd_held (s := u) (hu.symm ▸ hw)
    exact hrot ▸ watchEnded_withdraws h
  have hrotate (u : State) (h : hasWithdrawn u.rot .request) : hasWithdrawn (u.rotateFrame f).rot .request := by
    have hrot : (u.rotateFrame f).rot = u.rot := Rotation.onGoodFrame_offLine _ h.onLine_false
    exact hrot ▸ h
  have hofferGone (u : State) (h : hasWithdrawn u.rot .request) : hasWithdrawn (u.offerFrame f).rot .request := by
    rwa [State.offerFrame_rot_still (.inl h.onLine_false)]
  have hrotated : onlyWatching (s.rotateFrame f).rot := onlyWatching_onGoodFrame hwatching _ _
  have hwatch (u : State) : (u.offerFrame f).watch = u.watch := by rw [State.offerFrame_frame]
  obtain ⟨rotationFirst, offerFirst⟩ := o
  cases offerFirst with
  | false =>
    cases rotationFirst with
    | false => exact hofferGone _ (hrotate _ (hclose s rfl hwatching))
    | true => exact hofferGone _ (hclose (s.rotateFrame f) rfl hrotated)
  | true =>
    have hstill (u : State) (hu : u.straps = s.straps) : (u.offerFrame f).rot = u.rot :=
      State.offerFrame_rot_still (.inr (hu.symm ▸ hoffer.resolve_left nofun))
    cases rotationFirst with
    | false => exact hrotate _ (hclose (s.offerFrame f) (hwatch s) ((hstill s rfl).symm ▸ hwatching))
    | true =>
      exact hclose ((s.rotateFrame f).offerFrame f) (hwatch _) ((hstill (s.rotateFrame f) rfl).symm ▸ hrotated)

/-- With an answer in progress the end of the watch activity withdraws no station. -/
theorem watchEnded_answering {r : Rotation} (h : r.answer = true) : watchEnded r = { r with answerWatch := false } :=
  if_neg (by simp [h])

/-- The rotation controller as a station keeps it that is to leave and has its answer DUE alone in progress. -/
def staysToAnswer (r : Rotation) : Prop :=
  r.station = .active ∧ r.leaving = true ∧ r.answer = true ∧ r.answerWatch = false

/-- A good DATA leaves such a station ACTIVE (R44). -/
theorem staysToAnswer_anchored {r : Rotation} (hk : f.kind = .data)
    (hline : r.station = .listen ∨ r.station = .active) (hleaving : r.leaving = true) (hanswer : r.answer = true)
    (hwatch : r.answerWatch = false) (h : Nat) :
    staysToAnswer (r.onGoodFrame h f) := by
  rw [Rotation.onGoodFrame_data h hk, anchoredByData, if_pos hline]
  exact ⟨rfl, hleaving, hanswer, hwatch⟩

/-- A DATA to this station that the watch holds, offered to a watching station before the watch closes: the answer is
DUE and keeps the station at the close, whatever else the rotation controller `r` holds (R61). -/
theorem State.offered_then_closed {r : Rotation} (hline : r.station = .listen ∨ r.station = .active)
    (hwatch : r.answerWatch = true) (hw : holdsFrame s.watch f) (hk : f.kind = .data) (ho : f.own = false)
    (hs : f.sameNumber = false) (hdest : f.dest = s.straps.own) :
    (((s.setRot r).offerFrame f).watchFrameEnd f).rot = { r with answer := true, answerWatch := false } ∧
      (((s.setRot r).offerFrame f).watchFrameEnd f).pend.map (·.phase) = some .due := by
  obtain ⟨u, hdata, -, hdecide⟩ := s.decideAnswer_taken f
  have hpend : u.pend.map (·.phase) = some .due := by
    obtain ⟨code, v, rfl, -⟩ := hdata
    rfl
  have hoffer : (s.setRot r).offerFrame f = u.setRot { r with answer := true } := by
    rw [← dueTaken_stays (earlier := s.pend) (by simp [hwatch]), ← hdecide r ((Rotation.onLine_iff r).2 hline)]
    exact State.offerFrame_data (s := s.setRot r) hk ho hs hdest
  have hheld : holdsFrame ((s.setRot r).offerFrame f).watch f := by rw [State.offerFrame_frame]; exact hw
  obtain ⟨hrot, hkept⟩ := State.watchFrameEnd_held hheld
  rw [hrot, hkept, hoffer]
  exact ⟨watchEnded_answering rfl, hpend⟩

/-- So the station stays, whether the rotation controller takes the frame first or last. -/
theorem goodFrame_staysToAnswer (rotationFirst : Bool) (hleaving : s.rot.leaving = true)
    (hline : s.rot.station = .listen ∨ s.rot.station = .active) (hwatch : s.rot.answerWatch = true)
    (hw : holdsFrame s.watch f) (hk : f.kind = .data) (ho : f.own = false) (hs : f.sameNumber = false)
    (hdest : f.dest = s.straps.own) :
    staysToAnswer (s.goodFrame { rotationFirst := rotationFirst, offerFirst := true } f).rot ∧
      (s.goodFrame { rotationFirst := rotationFirst, offerFirst := true } f).pend.map (·.phase) = some .due := by
  cases rotationFirst with
  | false =>
    obtain ⟨hrot, hpend⟩ := State.offered_then_closed hline hwatch hw hk ho hs hdest
    refine ⟨?_, hpend⟩
    have hlast := staysToAnswer_anchored (r := { s.rot with answer := true, answerWatch := false }) hk hline hleaving
      rfl rfl ((s.offerFrame f).watchFrameEnd f).straps.highest
    rwa [← hrot] at hlast
  | true =>
    obtain ⟨hactive, hkept, -, hwatching⟩ := anchoredByData_onLine (h := s.straps.highest) (f := f) hline
    rw [← Rotation.onGoodFrame_data _ hk] at hactive hkept hwatching
    obtain ⟨hrot, hpend⟩ := State.offered_then_closed (r := s.rot.onGoodFrame s.straps.highest f) (.inr hactive)
      (hwatching.trans hwatch) hw hk ho hs hdest
    refine ⟨?_, hpend⟩
    have hlast : staysToAnswer { s.rot.onGoodFrame s.straps.highest f with answer := true, answerWatch := false } :=
      ⟨hactive, hkept.trans hleaving, rfl, rfl⟩
    rwa [← hrot] at hlast

end

/-! ## Every report that ends the last activity -/

/-- A command that ends the last activity, other than by a lost report. -/
theorem lastActivityEnds_withdraws {i : Instr} (hleaving : s.rot.leaving = true)
    (hline : s.rot.station = .listen ∨ s.rot.station = .active) (hends : lastActivityEnds s i) :
    ∃ t, exec i s = .next t ∧ hasWithdrawn t.rot .request := by
  rcases hends with ⟨tap, rfl, htap, hd, hsent, hem, hcount, hwatch, hlast⟩ |
    ⟨rfl, hframe, hwatch, p, hp, hdue, hfails⟩ | ⟨hframe, hanswer, hends⟩
  · have hframe := atLastSent_frame s
    refine ⟨_, exec_characterSent_last hd hsent hem htap hcount, ?_⟩
    generalize atLastSent s = u at *
    have hrot : u.rot = s.rot := by rw [hframe]
    have hpend : u.pend = s.pend := by rw [hframe]
    rw [← hrot] at hleaving hline hwatch hlast
    rw [← hpend] at hlast
    exact emittedReport_withdraws hleaving hline hwatch hlast
  · refine ⟨_, exec_answerWindowStart_notStarted hp hdue hfails, ?_⟩
    have hrot : (s.runTo p.windowStart).endAnswer.rot = afterActivity { s.rot with answer := false } :=
      Rotation.answerEnded_eq _
    rw [hrot]
    exact afterActivity_withdraws hleaving hline hframe hwatch rfl
  · have hwatching : onlyWatching s.rot := ⟨hleaving, hline, hframe, hanswer⟩
    rcases hends with ⟨rfl, w, e, hw, hidle⟩ | ⟨⟨r, rfl⟩, hrst, hvalid, hrx, hbit, hnow, w, e, hw, hin, hpast⟩ |
      ⟨rfl, hrst, hvalid, ha, hrx, hw⟩ | ⟨o, rfl, htakes, hends⟩
    · refine ⟨_, exec_watchWindowEnd_closes hw hidle, ?_⟩
      rw [State.closeWatch_rot]
      exact watchEnded_withdraws hwatching
    · exact startGlitch_withdraws hwatching hrst hvalid hrx hbit hnow hw hin hpast
    · exact frameTruncation_withdraws hwatching hrst hvalid ha hrx hw
    · rcases hends with ⟨ha, w, e, hw, hin, hpast⟩ | ⟨start, a, hdamage, hw⟩ | ⟨f, hgood, hw, -, hoffer⟩
      · exact characterIgnored_withdraws hwatching htakes ha hw hin hpast
      · exact characterDamaged_withdraws hwatching htakes hdamage hw
      · exact ⟨_, exec_characterDelivered_good o hgood, goodFrame_withdraws (s := atFrameEnd s) o hwatching hw hoffer⟩

end

/-- Settles O30: each report ends the activity (`lastActivityEnds_withdraws`, `lostReport_withdraws`), and a DATA
offered before the watch closes begins another (`goodFrame_staysToAnswer`). -/
theorem lastActivityEndsInWithdrawal : Obligations.LastActivityEndsInWithdrawal := by
  refine ⟨fun s i c hleaving hline hends => ?_, fun s o f hleaving hline hgood hw hwatch hfirst hk ho hs hdest => ?_⟩
  · rcases hends with ⟨hends, rfl⟩ | ⟨⟨cell, hmismatch⟩, hwatch, hlast, rfl⟩
    · exact lastActivityEnds_withdraws hleaving hline hends
    · obtain ⟨m, hexec⟩ := exec_mismatch hmismatch
      have hframe := atMismatch_frame s cell
      refine ⟨_, hexec, ?_⟩
      generalize atMismatch s cell = u at *
      have hrot : u.rot = s.rot := by rw [hframe]
      have hpend : u.pend = s.pend := by rw [hframe]
      rw [← hrot] at hleaving hline hwatch hlast ⊢
      rw [← hpend] at hlast
      exact lostReport_withdraws _ m hleaving hline hwatch hlast
  · obtain ⟨rotationFirst, offerFirst⟩ := o
    obtain rfl : offerFirst = true := hfirst
    obtain ⟨⟨hactive, hstays, hanswer, hended⟩, hpend⟩ := goodFrame_staysToAnswer (s := atFrameEnd s) rotationFirst
      hleaving hline hwatch hw hk ho hs hdest
    exact ⟨_, exec_characterDelivered_good _ hgood, hactive, hstays, hanswer, hended, hpend⟩

end Sys2Proof.Machine
end

section
/-! The peer table (chapter 4): the classification of a DATA frame, the peer snapshot, and the result of a watch, which
leaves its entry concluded or OUTSTANDING with one claim on the peer. -/

namespace Sys2Proof.Machine

open Sys2Proof

/-! ## The classification (R78, R79) -/

section
variable {p : PeerEntry} {e : Seq}

/-- With rx_expect unknown a frame is NEW_LINK, with FRESH or without. -/
theorem classify_unknown (h : p.rxExpect = none) (seq : Seq) (fresh : Bool) : classify p seq fresh = .newLink := by
  simp only [classify, h]

/-- With FRESH the last accepted seq is a duplicate only if that frame carried FRESH too (R78). -/
theorem classify_fresh (h : p.rxExpect = some e) (seq : Seq) :
    classify p seq true = if seq = e - 1 ∧ p.rxLastFresh = true then .duplicate else .newLink := by
  simp only [classify, h, if_true]

theorem classify_notFresh (h : p.rxExpect = some e) (seq : Seq) :
    classify p seq false = if seq = e then .next else if seq = e - 1 then .duplicate else .stray := by
  simp only [classify, h, Bool.false_eq_true, if_false]

end

/-- Settles O16: by whether rx_expect is known. -/
theorem classificationByFreshAndSeq : Obligations.ClassificationByFreshAndSeq := by
  refine fun p seq => ⟨?_, fun h => classify_unknown h seq false, fun e h => classify_notFresh h seq⟩
  cases h : p.rxExpect with
  | none =>
    rw [classify_unknown h, if_neg]
    rintro ⟨e, he, -⟩
    cases he
  | some e =>
    rw [classify_fresh h]
    refine if_congr ⟨fun hdup => ⟨e, rfl, hdup⟩, ?_⟩ rfl rfl
    rintro ⟨e', he, hdup⟩
    cases he
    exact hdup

/-! ## The peer snapshot (R82) -/

theorem State.peer_of_getElem? {s : State} {n : Nat} {p : PeerEntry} (h : s.peers[n]? = some p) : s.peer n = p := by
  rw [State.peer, List.getD_eq_getElem?_getD, h, Option.getD_some]

section
variable {s : State} {n : Nat}

/-- With no outstanding reference the snapshot's tag and position are 0. -/
theorem State.peerSnapshot_unnamed (h : (s.peer n).outstanding = none) :
    (s.peerSnapshot n).present = false ∧ (s.peerSnapshot n).tag = 0 ∧ (s.peerSnapshot n).position = 0 := by
  simp [State.peerSnapshot, h]

/-- The first entry of the queue with the reference is the one shown. -/
theorem State.peerSnapshot_named {ref i : Nat} {e : TxEntry} (h : (s.peer n).outstanding = some ref)
    (he : s.txq[i]? = some e) (href : e.ref = ref)
    (hfirst : ∀ (j : Nat) (x : TxEntry), j < i → s.txq[j]? = some x → x.ref ≠ ref) :
    (s.peerSnapshot n).present = true ∧ (s.peerSnapshot n).tag = e.tag ∧ (s.peerSnapshot n).position = i + 1 := by
  obtain ⟨hi, hget⟩ := List.getElem?_eq_some_iff.1 he
  have hearlier (j : Nat) (hj : j < i) : s.txq[j].ref ≠ ref :=
    hfirst j _ hj (List.getElem?_eq_getElem (hj.trans hi))
  have hfind : findEntry s.txq ref = some e :=
    List.find?_eq_some_iff_getElem.2 ⟨by simpa using href, i, hi, hget, fun j hj => by simpa using hearlier j hj⟩
  have hindex : s.txq.findIdx? (fun x => x.ref == ref) = some i :=
    List.findIdx?_eq_some_iff_getElem.2 ⟨hi, by simpa [hget] using href, fun j hj => by simpa using hearlier j hj⟩
  simp [State.peerSnapshot, h, hfind, hindex]

end

/-! ## The close of a PEER (R170) -/

/-- At CSn's rise an OPEN transaction of a command does what the command's close does. -/
theorem State.hostStep_close {s : State} {c : HostCommand} (hopen : s.port.state = .opened)
    (hcommand : s.port.command = some c) (close : State → State) : s.hostStep c .close close = close s := by
  have hruns : s.runs c = true := by simp [State.runs, hopen, hcommand]
  rw [State.hostStep, if_pos hruns]

theorem State.closePeer_eq (s : State) :
    s.closePeer = s.closedWith (if s.port.params = [] then .incomplete
      else if s.port.peerSnapshot = none then .invalid else .ok) := by
  unfold State.closePeer
  cases s.port.params <;> cases s.port.peerSnapshot <;> rfl

/-- Settles O40: the snapshot by whether the entry holds a reference, the close by `State.closePeer_eq`. -/
theorem peerShowsTheEntry : Obligations.PeerShowsTheEntry := by
  constructor
  · intro s n p hp
    have hpeer := State.peer_of_getElem? hp
    subst hpeer
    exact ⟨rfl, rfl, rfl, rfl, rfl, rfl, State.peerSnapshot_unnamed,
      fun _ _ _ hnamed he href hfirst => State.peerSnapshot_named hnamed he href hfirst⟩
  · rintro dt s u hopen hcommand rfl
    have hexec : exec (.peer dt .close) s = .next ((s.advance dt).hostStep .peer .close State.closePeer) := rfl
    rw [hexec, State.hostStep_close (s := s.advance dt) hopen hcommand, State.closePeer_eq]
    rfl

/-! ## An entry changed under its reference -/

section
variable {q : List TxEntry} {ref : Nat} {e : TxEntry} {f g : TxEntry → TxEntry}

/-- Only what the change makes of the entry found counts. -/
theorem updateEntry_congr (h : findEntry q ref = some e) (hfg : f e = g e) :
    updateEntry q ref f = updateEntry q ref g := by
  induction q with
  | nil => rfl
  | cons x xs ih =>
    rw [findEntry, List.find?_cons] at h
    unfold updateEntry at *
    cases hx : x.ref == ref with
    | true =>
      rw [hx] at h
      cases h
      simp only [updateFirst, hx, if_true, hfg]
    | false =>
      rw [hx] at h
      simp only [updateFirst, hx, Bool.false_eq_true, if_false, ih h]

/-- What was changed in an entry that leaves does not matter. -/
theorem removeEntry_updateEntry (hf : ∀ x, (f x).ref = x.ref) :
    removeEntry (updateEntry q ref f) ref = removeEntry q ref := by
  induction q with
  | nil => rfl
  | cons x xs ih =>
    unfold removeEntry updateEntry at *
    cases hx : x.ref == ref with
    | true => simp only [updateFirst, hx, hf, if_true, List.eraseP_cons_of_pos]
    | false => simp only [updateFirst, hx, Bool.false_eq_true, if_false, List.eraseP_cons, ih, cond_false]

end

/-! ## What the counts of a result leave of an entry (R99 to R102) -/

section
variable (e : TxEntry) (r : WatchResult)

/-- A result's counts are the only fields of the entry that it touches. -/
theorem TxEntry.countResult_frame :
    e.countResult r =
      { e with attempts := (e.countResult r).attempts, busyAnswers := (e.countResult r).busyAnswers } := by
  unfold TxEntry.countResult
  split <;> rfl

@[simp] theorem TxEntry.countResult_ref : (e.countResult r).ref = e.ref := by rw [TxEntry.countResult_frame]
@[simp] theorem TxEntry.countResult_tag : (e.countResult r).tag = e.tag := by rw [TxEntry.countResult_frame]
@[simp] theorem TxEntry.countResult_dest : (e.countResult r).dest = e.dest := by rw [TxEntry.countResult_frame]
@[simp] theorem TxEntry.countResult_isCast : (e.countResult r).isCast = e.isCast := by
  rw [TxEntry.countResult_frame]; rfl

end

section
variable {e : TxEntry}

/-- With no cancel deferred the sixteenth BUSY refuses the message (R100). -/
theorem TxEntry.resultEffect_busy (hcancel : e.cancelPending = false) :
    (e.countResult (.code .busy)).resultEffect (.code .busy) =
      if e.busyAnswers + 1 < 16 then .outstanding false else .conclude .refused false := by
  simp only [TxEntry.countResult, TxEntry.resultEffect, hcancel, Bool.false_eq_true, if_false, ← not_lt, ite_not]

/-- OUT_OF_STEP refreshes the peer, at the fourth attempt as at the earlier ones (R101). -/
theorem TxEntry.resultEffect_outOfStep (hcancel : e.cancelPending = false) :
    (e.countResult (.code .outOfStep)).resultEffect (.code .outOfStep) =
      if e.attempts < 4 then .outstanding true else .conclude .noAnswer true := by
  simp only [TxEntry.countResult, TxEntry.resultEffect, hcancel, Bool.false_eq_true, if_false, ← not_lt, ite_not]

/-- No answer refreshes the peer only at the fourth attempt (R102). -/
theorem TxEntry.resultEffect_noAnswer (hcancel : e.cancelPending = false) :
    (e.countResult .noAnswer).resultEffect .noAnswer =
      if e.attempts < 4 then .outstanding false else .conclude .noAnswer true := by
  simp only [TxEntry.countResult, TxEntry.resultEffect, hcancel, Bool.false_eq_true, if_false, ← not_lt, ite_not]

end

/-! ## A watch result at its entry (R114, R116) -/

/-- What the conclusion of an entry does to its peer entry is to take `claims`, with the outcome kept and the reference
given up. -/
def concludesWithClaims (o : TxOutcome) (refresh : Bool) (claims : PeerEntry → PeerEntry) : Prop :=
  ∀ (p : PeerEntry) (ref : Nat), p.concluded ref o refresh =
    { claims p with
      lastOutcome := some o, outstanding := if p.outstanding = some ref then none else p.outstanding }

section
variable {s : State} {e : TxEntry} {r : WatchResult} {o : TxOutcome} {refresh : Bool}
  {claims : PeerEntry → PeerEntry}

/-- A DATA entry concludes with the counts it has. -/
theorem State.conclude_eq (h : findEntry s.txq e.ref = some e) (hdata : e.isCast = false)
    (hclaims : concludesWithClaims o refresh claims) :
    s.conclude e.ref o refresh = concludedWith s e o e.attempts e.busyAnswers claims := by
  obtain ⟨htxq, hcompq, hpool, hpeers⟩ := State.conclude_found h o refresh
  rw [State.conclude_frame, htxq, hcompq, hpool, hpeers, if_neg (by simp [hdata]),
    funext fun p => hclaims p e.ref]
  rfl

/-- A result that concludes the entry IN_FLIGHT does so with the counts it has updated. -/
theorem State.applyWatchResult_concludes (h : findEntry s.txq e.ref = some e) (hflight : e.state = .inFlight)
    (hdata : e.isCast = false) (heffect : (e.countResult r).resultEffect r = .conclude o refresh)
    (hclaims : concludesWithClaims o refresh claims) :
    s.applyWatchResult e.ref r =
      concludedWith s e o (e.countResult r).attempts (e.countResult r).busyAnswers claims := by
  have hcounted := findEntry_updateEntry (f := fun x => x.countResult r) (fun x => x.countResult_ref r) h
  calc s.applyWatchResult e.ref r
      = (s.setTxq (updateEntry s.txq e.ref fun x => x.countResult r)).conclude e.ref o refresh := by
        simp only [State.applyWatchResult, h, hflight, if_true, heffect]
    _ = concludedWith (s.setTxq (updateEntry s.txq e.ref fun x => x.countResult r)) (e.countResult r) o
          (e.countResult r).attempts (e.countResult r).busyAnswers claims := by
        rw [← State.conclude_eq (e := e.countResult r) (by simpa using hcounted) (by simpa using hdata) hclaims,
          TxEntry.countResult_ref]
    _ = _ := by
        simp only [concludedWith, TxEntry.countResult_ref, TxEntry.countResult_tag, TxEntry.countResult_dest,
          State.setTxq_txq, removeEntry_updateEntry fun x => x.countResult_ref r]
        rfl

/-- A result that does not conclude the entry IN_FLIGHT returns it to OUTSTANDING with the counts updated, and refreshes
its peer or leaves the peer table as it was. -/
theorem State.applyWatchResult_returns (h : findEntry s.txq e.ref = some e) (hflight : e.state = .inFlight)
    (heffect : (e.countResult r).resultEffect r = .outstanding refresh) :
    s.applyWatchResult e.ref r =
      { outstandingWith s e (e.countResult r).attempts (e.countResult r).busyAnswers with
        peers := if refresh = true then s.peers.modify e.dest refreshed else s.peers } := by
  have hqueue : updateEntry s.txq e.ref (fun x => (x.countResult r).keepOutstanding) =
      (outstandingWith s e (e.countResult r).attempts (e.countResult r).busyAnswers).txq :=
    updateEntry_congr h (by rw [TxEntry.countResult_frame]; rfl)
  simp only [State.applyWatchResult, h, hflight, if_true, heffect, State.setTxq_txq,
    updateEntry_updateEntry fun x => x.countResult_ref r, hqueue]
  cases refresh <;> rfl

/-- A result with a bound on its count returns the entry below the bound and concludes it at the bound. -/
theorem State.applyWatchResult_bounded {below : Prop} [Decidable below] {again : Bool}
    (h : findEntry s.txq e.ref = some e) (hflight : e.state = .inFlight) (hdata : e.isCast = false)
    (heffect : (e.countResult r).resultEffect r = if below then .outstanding again else .conclude o refresh)
    (hclaims : concludesWithClaims o refresh claims) :
    s.applyWatchResult e.ref r =
      if below then
        { outstandingWith s e (e.countResult r).attempts (e.countResult r).busyAnswers with
          peers := if again = true then s.peers.modify e.dest refreshed else s.peers }
      else concludedWith s e o (e.countResult r).attempts (e.countResult r).busyAnswers claims := by
  by_cases hbelow : below
  · rw [if_pos hbelow] at heffect ⊢
    exact State.applyWatchResult_returns h hflight heffect
  · rw [if_neg hbelow] at heffect ⊢
    exact State.applyWatchResult_concludes h hflight hdata heffect hclaims

end

/-- Settles O32: TAKEN and TAKEN_AGAIN conclude the entry, and each other result has its bound
(`State.applyWatchResult_bounded`). -/
theorem watchResultsWithoutACancel : Obligations.WatchResultsWithoutACancel := by
  intro s e h hflight hdata hcancel
  refine ⟨?taken, ?busy, ?outOfStep, ?noAnswer⟩
  case taken =>
    rintro c (rfl | rfl)
    · exact State.applyWatchResult_concludes h hflight hdata rfl fun _ _ => rfl
    · exact State.applyWatchResult_concludes h hflight hdata rfl fun _ _ => rfl
  case busy =>
    exact State.applyWatchResult_bounded h hflight hdata (TxEntry.resultEffect_busy hcancel) fun _ _ => rfl
  case outOfStep =>
    exact State.applyWatchResult_bounded h hflight hdata (TxEntry.resultEffect_outOfStep hcancel) fun _ _ => rfl
  case noAnswer =>
    exact State.applyWatchResult_bounded h hflight hdata (TxEntry.resultEffect_noAnswer hcancel) fun _ _ => rfl

end Sys2Proof.Machine
end

section
/-! The answer unit's own instants: the window start of an answer that is DUE, and the window end of an OPEN watch. -/

namespace Sys2Proof.Machine

open Sys2Proof

/-! ## The window start (R90, R91) -/

section
variable {s : State} {p : PendingAnswer}

/-- The ANSWER begun at an instant: the emitter has its header and covers char 0, and the driver begins it. -/
theorem State.startAnswer_eq (s : State) (p : PendingAnswer) :
    s.startAnswer p = { s with
      pend := some { p with phase := .emitting }
      em :=
        { cond := .emitting, source := .answer, header := answerHeader s.straps.own p.seq p.sender p.code, blocks := [],
          length := 0, index := 0, count := 5, crc := crcByte 0xFFFF (BitVec.ofNat 8 (96 + s.straps.own)),
          frameStart := s.now }
      driver :=
        { cond := .driving, char := { data := BitVec.ofNat 8 (96 + s.straps.own), edge := true }, charStart := s.now,
          sent := false, next := none } } := by
  rw [State.startAnswer, State.beginFrame_eq]
  rfl

/-- The window start of a DUE answer with every condition of R90 met begins its ANSWER. -/
theorem exec_answerWindowStart_begins (hp : s.pend = some p) (hdue : p.phase = .due)
    (hnow : (s.runTo p.windowStart).now = p.windowStart) (hquiet : 64 ≤ (s.runTo p.windowStart).quiet.elapsed)
    (ha : s.asm.cond = .idle) (hrx : s.rx.cond ≠ .receiving) (hem : s.em.cond = .idle) :
    exec .answerWindowStart s = .next ((s.runTo p.windowStart).startAnswer p) := by
  simp only [exec, execAnswerWindowStart, hp, hdue, if_true]
  exact congrArg Host.Outcome.next
    (if_pos ⟨hnow, State.lineIdle_of hquiet ha hrx, (State.runTo_em_cond ..).trans hem⟩)

/-- A condition of R90 that fails is one of those for which the answer is not started. -/
theorem answerWindow_fails (h : ¬ ((s.runTo p.windowStart).now = p.windowStart ∧
      64 ≤ (s.runTo p.windowStart).quiet.elapsed ∧ s.asm.cond = .idle ∧ s.rx.cond ≠ .receiving ∧
      s.em.cond = .idle)) :
    p.windowStart < s.now ∨ (s.runTo p.windowStart).quiet.elapsed < 64 ∨ s.asm.cond ≠ .idle ∨
      s.rx.cond = .receiving ∨ s.em.cond ≠ .idle := by
  contrapose! h
  obtain ⟨hnow, hconds⟩ := h
  exact ⟨(State.runTo_now ..).trans (Nat.max_eq_right hnow), hconds⟩

end

/-- Settles O28: the ANSWER begins (`State.startAnswer_eq`), or a condition fails and the answer ends. -/
theorem answerWindowStartResult : Obligations.AnswerWindowStartResult := by
  rintro s u p header hp hdue rfl rfl
  refine ⟨fun ⟨hnow, hquiet, ha, hrx, hem⟩ => ?_, fun hfails => ?_⟩
  · rw [exec_answerWindowStart_begins hp hdue hnow hquiet ha hrx hem, State.startAnswer_eq]
    rfl
  · rw [exec_answerWindowStart_notStarted hp hdue (answerWindow_fails hfails), State.endAnswer, Rotation.answerEnded_eq]
    rfl

/-! ## The window end (R95) -/

/-- An OPEN watch waits past its window end for a character of the window. -/
theorem exec_watchWindowEnd_waits {s : State} {w : Watched} {e : Nat} (hw : s.watch = .opened w e)
    (hchar : s.rx.cond = .receiving ∧ inWindowOf e s.rx.startInstant) :
    exec .watchWindowEnd s = .next (s.runTo (e + 448)) := by
  simp only [exec, execWatchWindowEnd, hw]
  exact congrArg Host.Outcome.next (if_pos ((s.rx.inWindowChar_iff e).2 hchar))

/-- Settles O29: the watch waits for a character of its window (`exec_watchWindowEnd_waits`), and closes without. -/
theorem watchWindowEndResult : Obligations.WatchWindowEndResult := by
  rintro s u w e hw rfl
  refine ⟨exec_watchWindowEnd_waits hw, fun hidle => ?_⟩
  rw [exec_watchWindowEnd_closes hw hidle, State.closeWatch, Rotation.watchClosed_eq]
  rfl

end Sys2Proof.Machine
end

section
/-! The held frame: the offer, the rotation controller and the close of the watch in each order, and the damage that
the watch takes. -/

namespace Sys2Proof.Machine

open Sys2Proof

/-! ## The result of a held frame (R96) -/

section
variable {own : Nat} {w : Watched} {h : HeldFrame} {f : Frame}

theorem heldResult_matching (hk : f.kind = .answer) (ho : f.own = false) (hs : f.sameNumber = false)
    (htime : h.inTime = true) (hsender : f.sender = w.dest) (hdest : f.dest = own) (hseq : f.seq = w.seq) :
    heldResult own w h f = .code f.code :=
  if_pos ⟨hk, ho, hs, htime, hsender, hdest, hseq⟩

theorem heldResult_other
    (hno : f.kind ≠ .answer ∨ f.own = true ∨ f.sameNumber = true ∨ h.inTime = false ∨ f.sender ≠ w.dest ∨
      f.dest ≠ own ∨ f.seq ≠ w.seq) : heldResult own w h f = .noAnswer := by
  refine if_neg ?_
  rintro ⟨hk, ho, hs, htime, hsender, hdest, hseq⟩
  simp [hk, ho, hs, htime, hsender, hdest, hseq] at hno

end

/-! ## The offer does not read the watch (R30) -/

section
variable (s : State) (w : Watch) (f : Frame)

theorem State.answerDue_setWatch (code : AnswerCode) :
    (s.setWatch w).answerDue f code = (s.answerDue f code).setWatch w := by
  rw [State.answerDue_eq, State.answerDue_eq]
  rfl

theorem State.acceptData_setWatch (linkNew : Bool) :
    (s.setWatch w).acceptData f linkNew = (s.acceptData f linkNew).setWatch w :=
  State.answerDue_setWatch
    ((s.appendRecord f (.data f.seq linkNew)).modifyPeer f.sender fun p => p.accept f.seq f.fresh) w f .taken

theorem State.takeOrBusy_setWatch (linkNew : Bool) :
    (s.setWatch w).takeOrBusy f linkNew = (s.takeOrBusy f linkNew).setWatch w := by
  by_cases hroom : s.hasRoom (Config.blocksFor f.length) = true
  · rw [State.takeOrBusy, State.takeOrBusy, if_pos hroom]
    exact (if_pos hroom).trans (State.acceptData_setWatch ..)
  · rw [State.takeOrBusy, State.takeOrBusy, if_neg hroom]
    exact (if_neg hroom).trans (State.answerDue_setWatch ..)

theorem State.decideAnswer_setWatch : (s.setWatch w).decideAnswer f = (s.decideAnswer f).setWatch w := by
  have hpeer : (s.setWatch w).peer f.sender = s.peer f.sender := rfl
  unfold State.decideAnswer
  rw [hpeer, State.setWatch_rot]
  split
  · split
    · exact State.answerDue_setWatch ..
    · exact State.answerDue_setWatch ..
    · exact State.takeOrBusy_setWatch ..
    · exact State.takeOrBusy_setWatch ..
  · rfl

theorem State.receiveCast_setWatch : (s.setWatch w).receiveCast f = (s.receiveCast f).setWatch w := by
  by_cases hroom : s.hasRoom (Config.blocksFor f.length) = true
  · rw [State.receiveCast, State.receiveCast, if_pos hroom]; exact if_pos hroom
  · rw [State.receiveCast, State.receiveCast, if_neg hroom]; exact if_neg hroom

theorem State.offerFrame_setWatch : (s.setWatch w).offerFrame f = (s.offerFrame f).setWatch w := by
  unfold State.offerFrame
  split
  · rfl
  · split
    · rw [State.setWatch_straps]
      split
      · exact State.decideAnswer_setWatch ..
      · rfl
    · exact State.receiveCast_setWatch ..
    · rfl

end

/-! ## The offer and the rotation controller at a good frame (R30) -/

/-- A good frame at the rotation controller, of whatever kind. -/
theorem Rotation.onGoodFrame_taken (r : Rotation) (h : Nat) (f : Frame) : rotationTaken r (r.onGoodFrame h f) h f := by
  unfold rotationTaken
  split
  · exact Rotation.onGoodFrame_cast h ‹_›
  · exact Rotation.onGoodFrame_data h ‹_›
  · exact Rotation.onGoodFrame_answer ‹_›

section
variable {s : State} {f : Frame}

/-- A frame that begins no answer leaves the rotation controller. -/
theorem offerTaken_still {r : Rotation}
    (h : ¬ (f.kind = .data ∧ f.own = false ∧ f.sameNumber = false ∧ f.dest = s.straps.own ∧
      (r.station = .listen ∨ r.station = .active))) : offerTaken s r f = r :=
  if_neg h

/-- The offer of a good frame: what it does to every other block, and what to the rotation controller. -/
theorem State.offerFrame_offered (s : State) (f : Frame) :
    ∃ v, offered s v f ∧ s.offerFrame f = v.setRot (offerTaken s s.rot f) := by
  have hstill (v : State) (hrot : v.rot = s.rot)
      (h : ¬ (f.kind = .data ∧ f.own = false ∧ f.sameNumber = false ∧ f.dest = s.straps.own ∧
        (s.rot.station = .listen ∨ s.rot.station = .active))) : v = v.setRot (offerTaken s s.rot f) := by
    rw [offerTaken_still h, ← hrot]
    rfl
  by_cases hnot : f.own = true ∨ f.sameNumber = true
  · refine ⟨s, by rw [offered, if_pos hnot], ?_⟩
    rw [State.offerFrame_ownOrSame hnot]
    exact hstill s rfl fun g => by rcases hnot with h | h <;> simp [h] at g
  · have hother : f.own = false ∧ f.sameNumber = false := by simpa using hnot
    obtain ⟨ho, hs⟩ := hother
    unfold offered
    simp only [if_neg hnot]
    cases hk : f.kind with
    | cast =>
      refine ⟨s.receiveCast f, State.receiveCast_taken s f, ?_⟩
      rw [State.offerFrame_cast hk ho hs]
      exact hstill _ (State.receiveCast_rot s f) fun g => by simp [hk] at g
    | answer =>
      refine ⟨s, rfl, ?_⟩
      rw [show s.offerFrame f = s by simp [State.offerFrame, hk]]
      exact hstill s rfl fun g => by simp [hk] at g
    | data =>
      by_cases htaken : f.dest = s.straps.own ∧ (s.rot.station = .listen ∨ s.rot.station = .active)
      · obtain ⟨hdest, hline⟩ := htaken
        obtain ⟨u, hdata, -, hdecide⟩ := s.decideAnswer_taken f
        refine ⟨u, by simpa [hdest, hline] using hdata, ?_⟩
        rw [State.offerFrame_data hk ho hs hdest, offerTaken, if_pos ⟨hk, ho, hs, hdest, hline⟩]
        exact hdecide s.rot ((Rotation.onLine_iff _).2 hline)
      · refine ⟨s, by simp [htaken], ?_⟩
        have hleft : f.dest ≠ s.straps.own ∨ s.rot.onLine = false := by
          rw [← Bool.not_eq_true, Rotation.onLine_iff]
          exact not_and_or.1 htaken
        rw [State.offerFrame_data_notTaken hk hleft]
        exact hstill s rfl fun ⟨_, _, _, g⟩ => htaken g

end

/-! ## The held frame in the four orders (R61, R96, R97, R136) -/

section
variable {s : State} {f : Frame}

theorem State.applyWatchResult_setRot (s : State) (r : Rotation) (ref : Nat) (result : WatchResult) :
    (s.setRot r).applyWatchResult ref result = (s.applyWatchResult ref result).setRot r := by
  rw [State.applyWatchResult_of_queues (s := s) rfl, State.applyWatchResult_frame s]
  rfl

/-- The close of the watch, where the rotation controller holds `r`: the result is applied apart from it. -/
theorem State.closeWatch_setRot (s : State) (r : Rotation) (w : Watched) (result : WatchResult) :
    (s.setRot r).closeWatch w result =
      ((s.applyWatchResult w.entry result).setRot (watchEnded r)).setWatch .shut := by
  rw [State.closeWatch_from (s := s) rfl, State.applyWatchResult_frame s]
  rfl

/-- The held frame's end closes the watch, whatever the rotation controller `r` holds. -/
theorem State.watchFrameEnd_closes {w : Watched} {e : Nat} {h : HeldFrame} (r : Rotation)
    (hw : s.watch = .holding w e h) (hh : h.start = f.start) :
    (s.setRot r).watchFrameEnd f =
      ((s.applyWatchResult w.entry (heldResult s.straps.own w h f)).setRot (watchEnded r)).setWatch .shut := by
  rw [← State.closeWatch_setRot]
  simp only [State.watchFrameEnd, State.setRot_watch, hw]
  exact if_pos hh.symm

/-- The offer of the held frame, and then the close, from a rotation controller `r`. -/
theorem State.offerFrame_closes {w : Watched} {e : Nat} {h : HeldFrame} (r : Rotation)
    (hw : s.watch = .holding w e h) (hh : h.start = f.start) :
    ∃ u v, ((s.setRot r).offerFrame f).watchFrameEnd f =
        (u.setRot (watchEnded (offerTaken s r f))).setWatch .shut ∧
      offered (s.setRot r) v f ∧ u = v.applyWatchResult w.entry (heldResult s.straps.own w h f) ∧
      u.straps = s.straps := by
  obtain ⟨v, hoffered, hv⟩ := (s.setRot r).offerFrame_offered f
  have hwatch : v.watch = s.watch := (congrArg State.watch hv).symm.trans (by rw [State.offerFrame_frame]; rfl)
  have hstraps : v.straps = s.straps := (congrArg State.straps hv).symm.trans (by rw [State.offerFrame_frame]; rfl)
  refine ⟨_, v, ?_, hoffered, rfl, ?_⟩
  · rw [hv, State.watchFrameEnd_closes _ (hwatch.trans hw) hh, hstraps]
    rfl
  · rw [State.applyWatchResult_frame]
    exact hstraps

/-- The close, the result applied to the entry `ref`, and then the rotation controller, which the close left with `r`. -/
theorem State.closed_rotates (s : State) (r : Rotation) (f : Frame) (ref : Nat) (result : WatchResult) :
    (((s.applyWatchResult ref result).setRot r).setWatch .shut).rotateFrame f =
      ((s.applyWatchResult ref result).setRot (r.onGoodFrame s.straps.highest f)).setWatch .shut := by
  rw [State.applyWatchResult_frame]
  rfl

/-- The close, the result applied to the entry `ref`, and then the offer, to a rotation controller `x`. -/
theorem State.closed_offers (s : State) (x : Rotation) (f : Frame) (ref : Nat) (result : WatchResult) :
    ∃ u, (((s.applyWatchResult ref result).setRot x).setWatch .shut).offerFrame f =
        (u.setRot (offerTaken s x f)).setWatch .shut ∧
      offered ((s.setRot x).applyWatchResult ref result) u f := by
  obtain ⟨u, hoffered, hu⟩ := ((s.applyWatchResult ref result).setRot x).offerFrame_offered f
  refine ⟨u, ?_, (s.applyWatchResult_setRot x ref result).symm ▸ hoffered⟩
  rw [State.offerFrame_setWatch, hu, State.applyWatchResult_frame]
  rfl

/-- The held frame's end in the two orders that offer the frame before the watch closes: an answer that becomes DUE meets
the close (R61). -/
theorem goodFrame_held_offerFirst (rotationFirst : Bool) {w : Watched} {e : Nat} {h : HeldFrame}
    (hw : s.watch = .holding w e h) (hh : h.start = f.start) :
    ∃ u v x r, s.goodFrame { rotationFirst := rotationFirst, offerFirst := true } f =
        { u with watch := .shut, rot := r } ∧
      offered { s with rot := x } v f ∧ u = v.applyWatchResult w.entry (heldResult s.straps.own w h f) ∧
      (rotationFirst = true →
        rotationTaken s.rot x s.straps.highest f ∧ r = watchEnded (offerTaken s x f)) ∧
      (rotationFirst = false →
        x = s.rot ∧ rotationTaken (watchEnded (offerTaken s x f)) r s.straps.highest f) := by
  cases rotationFirst with
  | true =>
    obtain ⟨u, v, hclosed, hoffered, hu, -⟩ := State.offerFrame_closes (s.rot.onGoodFrame s.straps.highest f) hw hh
    exact ⟨u, v, _, _, hclosed, hoffered, hu, fun _ => ⟨Rotation.onGoodFrame_taken .., rfl⟩, nofun⟩
  | false =>
    obtain ⟨u, v, hclosed, hoffered, hu, hstraps⟩ := State.offerFrame_closes s.rot hw hh
    refine ⟨u, v, s.rot, _, congrArg (State.rotateFrame · f) hclosed, hoffered, hu, nofun, fun _ => ⟨rfl, ?_⟩⟩
    rw [← hstraps]
    exact Rotation.onGoodFrame_taken ..

/-- The held frame's end in the two orders that close the watch before the frame is offered: a station that the close
withdraws answers no DATA (R85). -/
theorem goodFrame_held_closeFirst (rotationFirst : Bool) {w : Watched} {e : Nat} {h : HeldFrame}
    (hw : s.watch = .holding w e h) (hh : h.start = f.start) :
    ∃ u x r, s.goodFrame { rotationFirst := rotationFirst, offerFirst := false } f =
        { u with watch := .shut, rot := r } ∧
      offered ({ s with rot := x }.applyWatchResult w.entry (heldResult s.straps.own w h f)) u f ∧
      r = offerTaken s x f ∧
      (rotationFirst = true → ∃ y, rotationTaken s.rot y s.straps.highest f ∧ x = watchEnded y) ∧
      (rotationFirst = false → rotationTaken (watchEnded s.rot) x s.straps.highest f) := by
  have hclosed (r : Rotation) := State.watchFrameEnd_closes (s := s) r hw hh
  cases rotationFirst with
  | true =>
    obtain ⟨u, hu, hoffered⟩ := s.closed_offers (watchEnded (s.rot.onGoodFrame s.straps.highest f)) f w.entry
      (heldResult s.straps.own w h f)
    exact ⟨u, _, _, (congrArg (State.offerFrame · f) (hclosed _)).trans hu, hoffered, rfl,
      fun _ => ⟨_, Rotation.onGoodFrame_taken .., rfl⟩, nofun⟩
  | false =>
    obtain ⟨u, hu, hoffered⟩ := s.closed_offers ((watchEnded s.rot).onGoodFrame s.straps.highest f) f w.entry
      (heldResult s.straps.own w h f)
    have hrotated := (congrArg (State.rotateFrame · f) (hclosed s.rot)).trans (State.closed_rotates ..)
    exact ⟨u, _, _, (congrArg (State.offerFrame · f) hrotated).trans hu, hoffered, rfl, nofun,
      fun _ => Rotation.onGoodFrame_taken ..⟩

end

/-! ## The damage that the watch takes (R94, R96) -/

/-- A damage notice that the watch takes, where receiver and assembler have moved on from `s`: the rotation controller
takes the damage and then the end of the watch activity (assumption log 14). -/
theorem State.damageNotice_closes {s t : State} {start : Nat} {w : Watched}
    (ht : t = { s with rx := t.rx, asm := t.asm }) (htakes : watchTakes t.watch start) (hw : t.watch.watched = some w) :
    t.damageNotice start =
      { s.applyWatchResult w.entry .noAnswer with
        rx := t.rx, asm := t.asm, watch := .shut,
        rot := afterActivity { damageTaken t.rot t.now with answerWatch := false } } := by
  rw [State.damageNotice_eq, State.watchDamage_takes (s := t.setRot (damageTaken t.rot t.now)) hw htakes]
  exact State.closeWatch_from (congrArg (·.setRot (damageTaken t.rot t.now)) ht) w .noAnswer

/-- A delivered character that is damage. -/
theorem exec_characterDelivered_damage (o : EndOrder) {s : State} {start : Nat} {a : Assembler}
    (htakes : takesCharacter s) (hdamage : damageAt s start a) :
    exec (.characterDelivered o.rotationFirst o.offerFirst) s = .next (((atStop s).setAsm a).damageNotice start) := by
  obtain ⟨hcond, hdeliver⟩ := damageAt_deliver s.straps.own (atStop s).now hdamage
  exact (exec_characterDelivered_takes o htakes).trans
    (congrArg _ (State.deliver_notice o (s := atStop s) hcond hdeliver))

/-- A frame that is truncated. -/
theorem exec_frameTruncation_damage {s : State} (hrst : s.rstLow = false) (hvalid : s.straps.valid = true)
    (ha : s.asm.cond = .inFrame) (hrx : s.rx.cond ≠ .receiving) :
    exec .frameTruncation s =
      .next (((s.runTo (s.asm.dueInstant + 32)).setAsm s.asm.damaged).damageNotice s.asm.startInstant) :=
  congrArg Host.Outcome.next (if_pos ⟨State.lineRuns_of hrst hvalid, ha, hrx⟩)

/-- Settles O31: a held frame's result is that of R96, its end runs the offer (`State.offerFrame_offered`), the rotation
controller (`Rotation.onGoodFrame_taken`) and the close (`State.watchFrameEnd_closes`) in the order given, and damage
closes the watch (`State.damageNotice_closes`). -/
theorem heldFrameClosesTheWatch : Obligations.HeldFrameClosesTheWatch := by
  refine ⟨fun own w h f => ⟨heldResult_matching, heldResult_other⟩, ?held, ?damage⟩
  case held =>
    intro o s f w e h hends hw hh
    rw [exec_characterDelivered_good o hends]
    obtain ⟨rotationFirst, offerFirst⟩ := o
    cases offerFirst with
    | true =>
      obtain ⟨u, v, x, r, hend, hoffered, hu, htrue, hfalse⟩ :=
        goodFrame_held_offerFirst (s := atFrameEnd s) rotationFirst hw hh
      exact ⟨u, v, x, r, congrArg Host.Outcome.next hend, fun _ => ⟨hoffered, hu⟩, nofun, fun hr _ => htrue hr,
        fun _ => nofun, fun hr _ => hfalse hr, fun _ => nofun⟩
    | false =>
      obtain ⟨u, x, r, hend, hoffered, hr, htrue, hfalse⟩ :=
        goodFrame_held_closeFirst (s := atFrameEnd s) rotationFirst hw hh
      exact ⟨u, _, x, r, congrArg Host.Outcome.next hend, nofun, fun _ => ⟨rfl, hoffered⟩, fun _ => nofun,
        fun h _ => ⟨htrue h, hr⟩, fun _ => nofun, fun h _ => ⟨hfalse h, hr⟩⟩
  case damage =>
    rintro i s u start a w T rx hcause htakes hw rfl
    have hnow : max s.now T = (s.runTo T).now := (State.runTo_now ..).symm
    rw [hnow]
    rcases hcause with ⟨⟨r, q, rfl⟩, hchar, hdamage, rfl, rfl⟩ | ⟨rfl, hrst, hvalid, ha, hrx, rfl, rfl, rfl, rfl⟩
    · rw [exec_characterDelivered_damage ⟨r, q⟩ hchar hdamage]
      exact congrArg Host.Outcome.next (State.damageNotice_closes (t := (atStop s).setAsm a) rfl htakes hw)
    · rw [exec_frameTruncation_damage hrst hvalid ha hrx]
      exact congrArg Host.Outcome.next
        (State.damageNotice_closes (t := (s.runTo (s.asm.dueInstant + 32)).setAsm s.asm.damaged) rfl htakes hw)

end Sys2Proof.Machine
end

section
/-! What the commands do to the lengths of the queues and to the counters: each move leaves them, but for the moves of the
rows that post, reap, receive, take or reset. -/

namespace Sys2Proof.Machine

open Sys2Proof

/-! ## The rows that move the queues (R107, R141) -/

/-- The rows of the resets (R3, R174). -/
def resetRow (c : Instr) : Prop :=
  (∃ dt, c = .pinReset dt) ∨ (∃ dt a b r l, c = .rstnRelease dt a b r l) ∨ ∃ dt, c = .restart dt .close

/-- The rows at which the budget count can move: the closes of POST and REAP, and the resets (R107). -/
def budgetRow (c : Instr) : Prop :=
  resetRow c ∨ (∃ dt, c = .post dt .close) ∨ ∃ dt, c = .reap dt .close

/-- The rows at which the receive queue can move: a character delivered, the close of TAKE, and the resets (R141, R150,
R153). -/
def receiveRow (c : Instr) : Prop :=
  resetRow c ∨ (∃ r f, c = .characterDelivered r f) ∨ ∃ dt, c = .take dt .close

/-! ## The budget count (R107) -/

@[simp] theorem updateEntry_length (q : List TxEntry) (ref : Nat) (f : TxEntry → TxEntry) :
    (updateEntry q ref f).length = q.length := by
  induction q with
  | nil => rfl
  | cons x xs ih =>
    unfold updateEntry at *
    cases hx : x.ref == ref with
    | true => simp [updateFirst, hx]
    | false => simp [updateFirst, hx, ih]

/-- An entry that is found leaves its place. -/
theorem removeEntry_length {q : List TxEntry} {ref : Nat} {e : TxEntry} (h : findEntry q ref = some e) :
    (removeEntry q ref).length + 1 = q.length := by
  have hmem : e ∈ q := List.mem_of_find?_eq_some h
  have hpos : 0 < q.length := List.length_pos_of_mem hmem
  rw [removeEntry, List.length_eraseP_of_mem hmem (List.find?_some h)]
  omega

section
variable (s : State)

/-- A conclusion gives the entry's place to its record (R107, R116). -/
theorem State.conclude_budget (ref : Nat) (o : TxOutcome) (refresh : Bool) :
    (s.conclude ref o refresh).budgetCount = s.budgetCount := by
  cases h : findEntry s.txq ref with
  | none => rw [State.conclude_missing h]
  | some e =>
    obtain ⟨htxq, hcompq, -, -⟩ := State.conclude_found h o refresh
    have hlen := removeEntry_length h
    simp only [State.budgetCount, htxq, hcompq, List.length_append, List.length_singleton]
    omega

theorem State.concludeCancelled_budget (e : TxEntry) : (s.concludeCancelled e).budgetCount = s.budgetCount := by
  unfold State.concludeCancelled
  split <;> exact State.conclude_budget ..

theorem State.setTxq_updateEntry_budget (ref : Nat) (f : TxEntry → TxEntry) :
    (s.setTxq (updateEntry s.txq ref f)).budgetCount = s.budgetCount := by
  simp [State.budgetCount]

theorem State.applyWatchResult_budget (ref : Nat) (r : WatchResult) :
    (s.applyWatchResult ref r).budgetCount = s.budgetCount := by
  unfold State.applyWatchResult
  split
  · rfl
  · split
    · dsimp only
      split
      · rw [State.conclude_budget, State.setTxq_updateEntry_budget]
      · split <;> simp [State.budgetCount, State.modifyPeer]
    · rfl

theorem State.returnEntry_budget (ref : Nat) : (s.returnEntry ref).budgetCount = s.budgetCount := by
  unfold State.returnEntry
  split
  · rfl
  · split
    · exact State.concludeCancelled_budget ..
    · dsimp only
      split <;> simp [State.budgetCount, State.modifyPeer]

theorem State.cancelEntry_budget (e : TxEntry) : (s.cancelEntry e).budgetCount = s.budgetCount := by
  unfold State.cancelEntry
  split
  · exact State.setTxq_updateEntry_budget ..
  · exact State.concludeCancelled_budget ..

end

theorem State.cancelAll_budget (es : List TxEntry) (s : State) :
    (es.foldl State.cancelEntry s).budgetCount = s.budgetCount := by
  induction es generalizing s with
  | nil => rfl
  | cons e es ih => rw [List.foldl_cons, ih, State.cancelEntry_budget]

/-- A POST that passes its checks finds a place free (R104). -/
theorem State.judgePost_place {s : State} {dest len : Nat} (h : s.judgePost dest len = .ok) : s.budgetCount < 16 := by
  unfold State.judgePost at h
  split at h
  · cases h
  · split at h
    · cases h
    · rename_i hfull
      exact Nat.lt_of_not_le hfull

/-- Every move leaves the budget count, but for those of the rows that move it, and those keep it within 16. -/
theorem Move.budget {c : Instr} {s t : State} (m : Move c s t) :
    t.budgetCount = s.budgetCount ∨ budgetRow c ∧ (s.budgetCount ≤ 16 → t.budgetCount ≤ 16) := by
  cases m with
  | side e => rw [e]; exact .inl rfl
  | rotate r _ => exact .inl rfl
  | watch w _ => exact .inl rfl
  | selectCast e _ _ => exact .inl (s.setTxq_updateEntry_budget ..)
  | selectData e q _ _ => exact .inl (s.setTxq_updateEntry_budget ..)
  | refused e _ => exact .inl ((State.returnEntry_budget ..).trans (s.setTxq_updateEntry_budget ..))
  | counted ref => exact .inl (s.setTxq_updateEntry_budget ..)
  | sent ref => exact .inl (s.conclude_budget ..)
  | returned ref => exact .inl (s.returnEntry_budget ..)
  | result w r _ => exact .inl (State.applyWatchResult_budget ..)
  | cancel tag =>
    refine .inl ?_
    unfold State.cancelTag
    split
    · rfl
    · exact State.cancelEntry_budget ..
  | flush => exact .inl (State.cancelAll_budget ..)
  | post dt dest tag len payload hc hj =>
    refine .inr ⟨.inr (.inl ⟨dt, hc⟩), fun _ => ?_⟩
    have hplace := State.judgePost_place hj
    simp only [State.budgetCount, State.appendEntry, State.takeRef, State.setNextRef_txq, State.setTxq_txq,
      State.setNextRef_compq, State.setTxq_compq, State.setPool_compq, List.length_append, List.length_singleton] at *
    omega
  | record a b f k _ _ => exact .inl rfl
  | accept a b k seq fresh _ => exact .inl rfl
  | castLost a b _ => exact .inl rfl
  | take dt _ =>
    refine .inl ?_
    unfold State.removeHeadRecord
    split <;> rfl
  | reap dt hc =>
    refine .inr ⟨.inr (.inr ⟨dt, hc⟩), fun h => ?_⟩
    simp only [State.budgetCount, State.setCompq_txq, State.setCompq_compq, List.length_tail] at *
    omega
  | pinReset dt hc => exact .inr ⟨.inl (.inl ⟨dt, hc⟩), fun _ => Nat.zero_le 16⟩
  | release dt a b r l hc => exact .inr ⟨.inl (.inr (.inl ⟨dt, a, b, r, l, hc⟩)), fun _ => Nat.zero_le 16⟩
  | restart dt hc => exact .inr ⟨.inl (.inr (.inr ⟨dt, hc⟩)), fun _ => Nat.zero_le 16⟩

/-! ## The receive queue (R141, R144, R145) -/

/-- The tally and the casts_lost_before of every record are at most 255 (R144, R145). -/
def ReceiveQueue.Tallied (q : ReceiveQueue) : Prop := q.tally ≤ 255 ∧ ∀ r ∈ q.records, r.castsLost ≤ 255

section
variable (s : State)

theorem State.conclude_rxq (ref : Nat) (o : TxOutcome) (refresh : Bool) :
    (s.conclude ref o refresh).rxq = s.rxq := by rw [State.conclude_frame]

theorem State.notStarted_rxq (e : TxEntry) : (s.notStarted e).rxq = s.rxq := by
  rw [State.notStarted, State.returnEntry_frame]; rfl

theorem State.cancelTag_rxq (tag : Byte) : (s.cancelTag tag).1.rxq = s.rxq := by
  unfold State.cancelTag
  split
  · rfl
  · rw [State.cancelEntry_frame]

/-- A record appended takes the tally with it (R145). -/
theorem State.appendRecord_tallied (f : Frame) (k : RecordClass) (h : s.rxq.Tallied) :
    (s.appendRecord f k).rxq.Tallied := by
  obtain ⟨htally, hrecords⟩ := h
  refine ⟨Nat.zero_le 255, fun r hr => ?_⟩
  rcases List.mem_append.1 hr with hold | hnew
  · exact hrecords r hold
  · rw [List.mem_singleton.1 hnew]; exact htally

theorem State.removeHeadRecord_rxq :
    s.removeHeadRecord.rxq = { s.rxq with records := s.rxq.records.tail } := by
  unfold State.removeHeadRecord
  split
  · rename_i h; rw [h, List.tail_nil, ← h]
  · rename_i r rest h; simp [h]

end

/-- Every move leaves the receive queue, but for those of the rows that move it, and those keep it within 24 records and
its counts within 255. -/
theorem Move.receive {c : Instr} {s t : State} (m : Move c s t) :
    t.rxq = s.rxq ∨ receiveRow c ∧ (s.rxq.records.length ≤ 24 → t.rxq.records.length ≤ 24) ∧
      (s.rxq.Tallied → t.rxq.Tallied) := by
  have hreset {u : State} (hu : u.rxq = { records := [], tally := 0 }) :
      (s.rxq.records.length ≤ 24 → u.rxq.records.length ≤ 24) ∧ (s.rxq.Tallied → u.rxq.Tallied) := by
    simp [hu, ReceiveQueue.Tallied]
  cases m with
  | side e => rw [e]; exact .inl rfl
  | rotate r _ => exact .inl rfl
  | watch w _ => exact .inl rfl
  | selectCast e _ _ => exact .inl rfl
  | selectData e q _ _ => exact .inl rfl
  | refused e _ => exact .inl (s.notStarted_rxq e)
  | counted ref => exact .inl rfl
  | sent ref => exact .inl (s.conclude_rxq ..)
  | returned ref => rw [State.returnEntry_frame]; exact .inl rfl
  | result w r _ => rw [State.applyWatchResult_frame]; exact .inl rfl
  | cancel tag => exact .inl (s.cancelTag_rxq tag)
  | flush => rw [State.flushAll, State.cancelAll_frame]; exact .inl rfl
  | post dt dest tag len payload _ _ => exact .inl rfl
  | record a b f k hc hroom =>
    refine .inr ⟨.inr (.inl ⟨a, b, hc⟩), fun _ => ?_, s.appendRecord_tallied f k⟩
    obtain ⟨hplace, -⟩ := of_decide_eq_true hroom
    simpa [State.appendRecord, State.takeRef] using Nat.succ_le_of_lt hplace
  | accept a b k seq fresh _ => exact .inl rfl
  | castLost a b hc =>
    exact .inr ⟨.inr (.inl ⟨a, b, hc⟩), id, fun ⟨_, hrecords⟩ => ⟨Nat.min_le_left .., hrecords⟩⟩
  | take dt hc =>
    refine .inr ⟨.inr (.inr ⟨dt, hc⟩), ?_, ?_⟩ <;> rw [State.removeHeadRecord_rxq]
    · intro h
      rw [List.length_tail]
      exact (Nat.sub_le ..).trans h
    · exact fun ⟨htally, hrecords⟩ => ⟨htally, fun r hr => hrecords r (List.mem_of_mem_tail hr)⟩
  | reap dt _ => exact .inl rfl
  | pinReset dt hc => exact .inr ⟨.inl (.inl ⟨dt, hc⟩), hreset rfl⟩
  | release dt a b r l hc => exact .inr ⟨.inl (.inr (.inl ⟨dt, a, b, r, l, hc⟩)), hreset rfl⟩
  | restart dt hc => exact .inr ⟨.inl (.inr (.inr ⟨dt, hc⟩)), hreset rfl⟩

/-! ## The counts of the rotation controller (R63) -/

/-- The damaged, loss and rest counts. -/
def Rotation.counts (r : Rotation) : Nat × Nat × Nat := (r.damaged, r.losses, r.rests)

/-- The damaged, loss and rest counts keep to their range (R63). -/
def Rotation.Counted (r : Rotation) : Prop := r.damaged ≤ 65535 ∧ r.losses ≤ 65535 ∧ r.rests ≤ 65535

section
variable {h : Nat} {r u : Rotation}

theorem Rotation.Counted.of_counts (l : r.Counted) (e : u.counts = r.counts) : u.Counted := by
  simp only [Rotation.counts, Prod.mk.injEq] at e
  obtain ⟨hd, hl, hr⟩ := e
  simpa only [Rotation.Counted, hd, hl, hr] using l

theorem Rotation.settle_counts (r : Rotation) : r.settle.counts = r.counts := by
  unfold Rotation.settle
  split <;> rfl

theorem Rotation.onFrameOpened_counts (r : Rotation) (start : Nat) : (r.onFrameOpened start).counts = r.counts := by
  unfold Rotation.onFrameOpened
  split
  · split
    · rfl
    · rfl
    · split <;> rfl
    · rfl
    · rfl
  · rfl

/-- A count of damage saturates (R63). -/
theorem Rotation.Counted.countDamage (l : r.Counted) : r.countDamage.Counted := by
  obtain ⟨-, hl, hr⟩ := l
  exact ⟨Nat.min_le_left .., hl, hr⟩

theorem Rotation.Counted.onGoodFrame (l : r.Counted) (f : Frame) : (r.onGoodFrame h f).Counted := by
  unfold Rotation.onGoodFrame
  split
  · split
    · exact l
    · exact l
    · split
      · exact l
      · split
        · exact l
        · unfold Rotation.misplaced
          split
          · exact l.countDamage.of_counts rfl
          · exact l.countDamage
  · exact l

theorem Rotation.Counted.onDamage (l : r.Counted) (t : Nat) : (r.onDamage t).Counted := by
  unfold Rotation.onDamage
  split
  · exact l.countDamage.of_counts rfl
  · exact l.countDamage.of_counts rfl
  · exact l.countDamage
  · exact l

theorem Rotation.Counted.onEmitted (l : r.Counted) (k : FrameKind) : (r.onEmitted k).Counted := by
  cases k with
  | cast => exact l.of_counts (Rotation.settle_counts _)
  | data => exact l
  | answer => exact l

theorem Rotation.Counted.onLost (l : r.Counted) (k : FrameKind) (start t : Nat) (m : Mismatch) :
    (r.onLost k start t m).Counted := by
  obtain ⟨hd, -, hr⟩ := l
  have hlost : ({ r with
      faultCount := satSucc Config.faultLimit r.faultCount, losses := satSucc Config.countMax r.losses,
      ownFrame := if k = FrameKind.answer then r.ownFrame else false } : Rotation).Counted :=
    ⟨hd, Nat.min_le_left .., hr⟩
  unfold Rotation.onLost
  dsimp only
  split
  · exact hlost.of_counts rfl
  · split
    · exact hlost.of_counts (Rotation.settle_counts _)
    · exact hlost.of_counts (Rotation.settle_counts _)

/-- Every change that a command makes to the rotation controller keeps its counts in their range. -/
theorem RotMove.counted (m : RotMove h r u) (l : r.Counted) : u.Counted := by
  cases m with
  | opened start => exact l.of_counts (Rotation.onFrameOpened_counts ..)
  | good f => exact l.onGoodFrame f
  | damage t => exact l.onDamage t
  | passed t _ => exact l
  | emitted k => exact l.onEmitted k
  | lost k start t m => exact l.onLost k start t m
  | due => exact l
  | ended => exact l.of_counts (Rotation.settle_counts _)
  | closed => exact l.of_counts (Rotation.settle_counts _)
  | slot i _ => exact l
  | turn _ => exact l
  | restDue _ => exact l
  | rest t _ =>
    obtain ⟨hd, hl, -⟩ := l
    exact ⟨hd, hl, Nat.min_le_left ..⟩
  | leave _ => exact l.of_counts (by unfold Rotation.leave; split <;> rfl)
  | rejoin t _ => exact l
  | cleared => exact l.of_counts (by unfold Rotation.clearRequest; split <;> rfl)
  | snapshot => exact l

end

/-- The reset values of the rotation controller are in range (R65). -/
theorem Rotation.init_counted (t : Nat) : (Rotation.init t).Counted := by
  simp [Rotation.Counted, Rotation.init]

/-- What a move does to the rotation controller: nothing, a change of its own, or a reset. -/
theorem Move.rotation {c : Instr} {s t : State} (m : Move c s t) :
    t.rot = s.rot ∨ RotMove s.straps.highest s.rot t.rot ∨ t.rot.counts = (Rotation.init s.now).counts := by
  cases m with
  | side e => rw [e]; exact .inl rfl
  | rotate r m => exact .inr (.inl m)
  | watch w _ => exact .inl rfl
  | selectCast e _ _ => exact .inl rfl
  | selectData e q _ _ => exact .inl rfl
  | refused e _ => rw [State.notStarted, State.returnEntry_frame]; exact .inl rfl
  | counted ref => exact .inl rfl
  | sent ref => rw [State.conclude_frame]; exact .inl rfl
  | returned ref => rw [State.returnEntry_frame]; exact .inl rfl
  | result w r _ => rw [State.applyWatchResult_frame]; exact .inl rfl
  | cancel tag =>
    unfold State.cancelTag
    split
    · exact .inl rfl
    · rw [State.cancelEntry_frame]; exact .inl rfl
  | flush => rw [State.flushAll, State.cancelAll_frame]; exact .inl rfl
  | post dt dest tag len payload _ _ => exact .inl rfl
  | record a b f k _ _ => exact .inl rfl
  | accept a b k seq fresh _ => exact .inl rfl
  | castLost a b _ => exact .inl rfl
  | take dt _ =>
    unfold State.removeHeadRecord
    split <;> exact .inl rfl
  | reap dt _ => exact .inl rfl
  | pinReset dt _ => exact .inr (.inr rfl)
  | release dt a b r low _ =>
    have hreleased (valid : Bool) : (Rotation.released s.now valid).counts = (Rotation.init s.now).counts := by
      cases valid <;> rfl
    exact .inr (.inr (hreleased _))
  | restart dt _ => exact .inr (.inr rfl)

theorem Move.keeps_counted {c : Instr} {s t : State} (m : Move c s t) (l : s.rot.Counted) : t.rot.Counted := by
  rcases m.rotation with heq | hmove | hreset
  · rwa [heq]
  · exact hmove.counted l
  · exact (Rotation.init_counted s.now).of_counts hreset

/-! ## The quiet timer (R10) -/

/-- The quiet timer is held at 65535 (R10). -/
theorem ClockMove.quiet_le {s t : State} (m : ClockMove s t) (h : s.quiet.elapsed ≤ 65535) :
    t.quiet.elapsed ≤ 65535 := by
  cases m with
  | still hview =>
    simp only [State.clockView, Prod.mk.injEq] at hview
    obtain ⟨-, -, -, hquiet⟩ := hview
    rwa [hquiet]
  | pass d =>
    rw [State.advance_quiet]
    split
    · exact Nat.min_le_left ..
    · exact h
  | dominant _ hview =>
    simp only [State.clockView, Prod.mk.injEq] at hview
    obtain ⟨-, -, -, hquiet⟩ := hview
    simp [hquiet, QuietTimer.atDominant]
  | reset _ hquiet => simp [hquiet, QuietTimer.start]

/-! ## Every step -/

theorem Move.queueLimits {c : Instr} {s t : State} (m : Move c s t) (l : s.queueLimits) : t.queueLimits := by
  obtain ⟨hbudget, hrecords⟩ := l
  constructor
  · rcases m.budget with heq | ⟨-, hle⟩
    · exact heq.trans_le hbudget
    · exact hle hbudget
  · rcases m.receive with heq | ⟨-, hle, -⟩
    · rwa [heq]
    · exact hle hrecords

/-- The counts other than the quiet timer's, which is the clock's. -/
theorem Move.counters {c : Instr} {s t : State} (m : Move c s t) (l : s.rot.Counted ∧ s.rxq.Tallied) :
    t.rot.Counted ∧ t.rxq.Tallied := by
  obtain ⟨hrot, hrxq⟩ := l
  refine ⟨m.keeps_counted hrot, ?_⟩
  rcases m.receive with heq | ⟨-, -, hle⟩
  · rwa [heq]
  · exact hle hrxq

/-- Settles O52: every step is a run of moves and a run of clock moves, and each of them keeps its part of the limits. -/
theorem everyStepKeepsTheLimits : Obligations.EveryStepKeepsTheLimits := by
  refine ⟨fun s t l e => step_keeps (fun _ _ _ m => m.queueLimits) l e, fun s t l e => ?_⟩
  obtain ⟨hdamaged, hlosses, hrests, hquiet, hrxq⟩ := l
  obtain ⟨⟨hdamaged', hlosses', hrests'⟩, hrxq'⟩ :=
    step_keeps (fun _ _ _ m => m.counters) ⟨⟨hdamaged, hlosses, hrests⟩, hrxq⟩ e
  exact ⟨hdamaged', hlosses', hrests', step_keeps_clock (fun _ _ m => m.quiet_le) hquiet e, hrxq'⟩

end Sys2Proof.Machine
end

section
/-! The closes of the host's transactions, and the cancels: the close of REAP, a deferred cancel resolved, CANCEL and
FLUSH. -/

namespace Sys2Proof.Machine

open Sys2Proof

/-! ## A step of a host transaction (R154, R158) -/

section
variable {s : State}

/-- A byte exchanged touches the port alone. -/
theorem State.exchange_port (s : State) (c : HostCommand) (b : Byte) : ∃ v, State.exchange c b s = s.setPort v := by
  unfold State.exchange
  dsimp only
  split
  · exact ⟨_, rfl⟩
  · unfold State.takeParam
    split <;> exact ⟨_, rfl⟩

/-- An edge of SCK or a byte, where what acts on the byte touches the port alone, touches the port alone. -/
theorem State.sckRise_port (s : State) (m : Bool) {whole : Byte → State → State}
    (h : ∀ b u, ∃ v, whole b u = u.setPort v) : ∃ v, s.sckRise m whole = s.setPort v := by
  unfold State.sckRise
  split
  · exact ⟨s.port, rfl⟩
  · split
    · exact ⟨_, rfl⟩
    · obtain ⟨v, hv⟩ := h (byteOfMosi (s.port.bitsIn ++ [m])) (s.setPort { s.port with bitsIn := [], sckHigh := true })
      exact ⟨v, hv⟩

theorem State.sckByte_port (s : State) (b : Byte) {whole : Byte → State → State}
    (h : ∀ b u, ∃ v, whole b u = u.setPort v) : ∃ v, s.sckByte b whole = s.setPort v := by
  unfold State.sckByte
  split
  · exact h b s
  · exact ⟨s.port, rfl⟩

/-- A step of a transaction's row is the close of its command, or touches the port alone. -/
theorem State.hostStep_cases (s : State) (c : HostCommand) (p : HostPhase) (close : State → State) :
    (p = .close ∧ s.port.state = .opened ∧ s.port.command = some c) ∧ s.hostStep c p close = close s ∨
      ¬ (p = .close ∧ s.port.state = .opened ∧ s.port.command = some c) ∧ ∃ v, s.hostStep c p close = s.setPort v := by
  have hwhole (b : Byte) (u : State) : ∃ v, State.exchange c b u = u.setPort v := u.exchange_port c b
  have hruns : s.runs c = true ↔ s.port.state = .opened ∧ s.port.command = some c := by simp [State.runs]
  unfold State.hostStep
  by_cases hopen : s.port.state = .opened ∧ s.port.command = some c
  · rw [if_pos (hruns.2 hopen)]
    cases p with
    | rise m => exact .inr ⟨nofun, s.sckRise_port m hwhole⟩
    | fall => exact .inr ⟨nofun, _, rfl⟩
    | byte b => exact .inr ⟨nofun, s.sckByte_port b hwhole⟩
    | close => exact .inl ⟨⟨rfl, hopen⟩, rfl⟩
  · rw [if_neg (mt hruns.1 hopen)]
    exact .inr ⟨fun ⟨_, h⟩ => hopen h, s.port, rfl⟩

/-- In STRAP_FAULT a command that acts at its close is refused (R175). -/
theorem State.closeCommand_refused (h : s.rot.station = .strapFault) (complete : Bool) (act : State → State × Result) :
    s.closeCommand complete act = s.closedWith .wrongState := if_pos h

/-- A command that lacks a parameter is INCOMPLETE (R158). -/
theorem State.closeCommand_incomplete (h : s.rot.station ≠ .strapFault) {complete : Bool} (hc : complete = false)
    (act : State → State × Result) : s.closeCommand complete act = s.closedWith .incomplete := by
  rw [State.closeCommand, if_neg h, hc]
  rfl

/-- A command that is complete has its effect and gives its result (R158). -/
theorem State.closeCommand_acts (h : s.rot.station ≠ .strapFault) {complete : Bool} (hc : complete = true)
    {act : State → State × Result} {t : State} {r : Result} (hact : act s = (t, r)) :
    s.closeCommand complete act = t.closedWith r := by
  rw [State.closeCommand, if_neg h, if_pos hc, hact]
  rfl

end

/-! ## The close of a REAP (R119, R167) -/

theorem exec_reap_close {s : State} (dt : Nat) {t : State} {r : Result} (hopen : s.port.state = .opened)
    (hcommand : s.port.command = some .reap) (hs : s.rot.station ≠ .strapFault)
    (hact : (s.advance dt).presentReap = (t, r)) : exec (.reap dt .close) s = .next (t.closedWith r) :=
  congrArg Host.Outcome.next
    ((State.hostStep_close (s := s.advance dt) hopen hcommand _).trans
      (State.closeCommand_acts (s := s.advance dt) hs rfl hact))

/-- Settles O43: the close does what `State.presentReap` judges by the opening's reading and the bytes clocked out. -/
theorem reapRemovesAWholeRead : Obligations.ReapRemovesAWholeRead := by
  rintro dt s u r hopen hcommand hopening hs rfl
  have hpresent : (s.advance dt).presentReap = match r.completionHead with
      | none => (s.advance dt, .empty)
      | some _ =>
        if 7 ≤ s.port.returned.length then ((s.advance dt).setCompq s.compq.tail, .ok)
        else (s.advance dt, .incomplete) := by
    rw [State.presentReap, State.advance_port, hopening]
    rfl
  refine ⟨fun hnone => ?_, fun h hsome hshort => ?_, fun h rest hsome hwhole hq => ?_⟩
  · exact exec_reap_close dt hopen hcommand hs (by rw [hpresent, hnone])
  · exact exec_reap_close dt hopen hcommand hs (by rw [hpresent, hsome, if_neg (not_le.2 hshort)])
  · rw [exec_reap_close dt hopen hcommand hs (by rw [hpresent, hsome, if_pos hwhole]), hq]
    rfl

/-! ## A cancel concluded (R116, R121, R123) -/

section
variable {s : State} {e : TxEntry}

/-- An entry concluded by a cancel leaves with its record, its blocks and its claims. -/
theorem State.concludeCancelled_eq (h : findEntry s.txq e.ref = some e) :
    s.concludeCancelled e = { s with
      txq := removeEntry s.txq e.ref
      compq := s.compq ++ [e.record (if e.attemptedEver = true then .cancelledAfterAttempt else .cancelled)]
      pool := s.pool.release (.transmit e.ref)
      peers := if e.isCast = true then s.peers else s.peers.modify e.dest (cancelClaims e) } := by
  have hconclude (o : TxOutcome) (refresh : Bool) (hclaims : ∀ p, PeerEntry.concluded p e.ref o refresh = cancelClaims e p) :
      s.conclude e.ref o refresh = { s with
        txq := removeEntry s.txq e.ref
        compq := s.compq ++ [e.record o]
        pool := s.pool.release (.transmit e.ref)
        peers := if e.isCast = true then s.peers else s.peers.modify e.dest (cancelClaims e) } := by
    obtain ⟨htxq, hcompq, hpool, hpeers⟩ := State.conclude_found h o refresh
    rw [State.conclude_frame, htxq, hcompq, hpool, hpeers, funext hclaims]
  unfold State.concludeCancelled
  cases ha : e.attemptedEver with
  | true => exact hconclude _ _ fun p => by rw [cancelClaims, ha]; rfl
  | false => exact hconclude _ _ fun p => by rw [cancelClaims, ha]; rfl

/-- The end of an attempt with a cancel deferred is the entry's conclusion by the cancel (R123). -/
theorem State.returnEntry_cancels (h : findEntry s.txq e.ref = some e) (hc : e.cancelPending = true) :
    s.returnEntry e.ref = s.concludeCancelled e := by
  simp only [State.returnEntry, h, hc, if_true]

end

/-- With a cancel deferred no result but TAKEN and TAKEN_AGAIN has a bound (R123). -/
theorem TxEntry.resultEffect_cancelled {e : TxEntry} (hcancel : e.cancelPending = true) (r : WatchResult)
    (hr : r ≠ .code .taken ∧ r ≠ .code .takenAgain) :
    (e.countResult r).resultEffect r = .conclude .cancelledAfterAttempt true := by
  obtain ⟨ht, ha⟩ := hr
  match r with
  | .code .taken => exact absurd rfl ht
  | .code .takenAgain => exact absurd rfl ha
  | .code .busy => simp [TxEntry.resultEffect, TxEntry.countResult, hcancel]
  | .code .outOfStep => simp [TxEntry.resultEffect, TxEntry.countResult, hcancel]
  | .noAnswer => simp [TxEntry.resultEffect, TxEntry.countResult, hcancel]

/-- Settles O33: a result concludes the entry with the counts it has updated, and a lost report by its deferred cancel. -/
theorem deferredCancelsAreResolved : Obligations.DeferredCancelsAreResolved := by
  constructor
  · intro s e r h hflight hdata hcancel
    have hcancelled (hr : r ≠ .code .taken ∧ r ≠ .code .takenAgain) :
        s.applyWatchResult e.ref r = concludedWith s e .cancelledAfterAttempt (e.countResult r).attempts
          (e.countResult r).busyAnswers refreshed :=
      State.applyWatchResult_concludes h hflight hdata (TxEntry.resultEffect_cancelled hcancel r hr) fun _ _ => rfl
    match r with
    | .code .taken => exact State.applyWatchResult_concludes h hflight hdata rfl fun _ _ => rfl
    | .code .takenAgain => exact State.applyWatchResult_concludes h hflight hdata rfl fun _ _ => rfl
    | .code .busy => exact hcancelled (by decide)
    | .code .outOfStep => exact hcancelled (by decide)
    | .noAnswer => exact hcancelled (by decide)
  · rintro s _ start kind m e h rfl hcancel hkind
    rw [State.lostReport_transmit s hkind, State.returnEntry_cancels (by exact h) hcancel,
      State.concludeCancelled_eq (by exact h)]
    exact ⟨rfl, rfl, rfl, fun hdata => if_neg (by simp [hdata])⟩

/-! ## CANCEL (R121, R171) -/

theorem exec_cancel_close {s : State} (dt : Nat) {tag : Byte} {more : List Byte} {t : State} {r : Result}
    (hopen : s.port.state = .opened) (hcommand : s.port.command = some .cancel) (hs : s.rot.station ≠ .strapFault)
    (hparams : s.port.params = tag :: more) (hact : (s.advance dt).cancelTag tag = (t, r)) :
    exec (.cancel dt .close) s = .next (t.closedWith r) :=
  congrArg Host.Outcome.next
    ((State.hostStep_close (s := s.advance dt) hopen hcommand _).trans
      (State.closeCommand_acts (s := s.advance dt) hs (by simp [hparams]) (by simpa [hparams] using hact)))

/-- Settles O45: the close presents the tag, and the oldest entry with it is deferred or concluded. -/
theorem cancelActsOnTheOldestWithItsTag : Obligations.CancelActsOnTheOldestWithItsTag := by
  rintro dt s u tag more hopen hcommand hs rfl
  refine ⟨fun hparams => ?_, fun hparams hnone => ?_, fun e hparams htag hfound => ?_⟩
  · exact congrArg Host.Outcome.next
      ((State.hostStep_close (s := s.advance dt) hopen hcommand _).trans
        (State.closeCommand_incomplete (s := s.advance dt) hs (by simp [hparams]) _))
  · exact exec_cancel_close dt hopen hcommand hs hparams (by simp [State.cancelTag, hnone])
  · have hcancel : (s.advance dt).cancelTag tag =
        ((s.advance dt).cancelEntry e, if e.state = .inFlight then .deferred else .ok) := by
      simp [State.cancelTag, htag]
    have hnow (hstate : e.state ≠ .inFlight) :
        exec (.cancel dt .close) s = .next (((s.advance dt).concludeCancelled e).closedWith .ok) := by
      rw [State.cancelEntry, if_neg hstate, if_neg hstate] at hcancel
      exact exec_cancel_close dt hopen hcommand hs hparams hcancel
    refine ⟨fun hflight => ?_, fun hstate hever hdata => ?_, fun hstate hever => ?_⟩
    · rw [State.cancelEntry, if_pos hflight, if_pos hflight] at hcancel
      exact exec_cancel_close dt hopen hcommand hs hparams hcancel
    · rw [hnow hstate, State.concludeCancelled, if_pos hever,
        State.conclude_eq (s := s.advance dt) (claims := refreshed) hfound hdata fun _ _ => rfl]
      rfl
    · have hclaims : cancelClaims e = fun p =>
          { p with outstanding := if p.outstanding = some e.ref then none else p.outstanding } := by
        funext p
        rw [cancelClaims, hever]
        rfl
      refine ⟨_, hnow hstate, ?_, fun hcast => ?_, fun hdata => ?_⟩ <;>
        rw [State.concludeCancelled_eq (s := s.advance dt) hfound]
      · rw [hever]
        rfl
      · exact if_pos hcast
      · rw [← hclaims]
        exact if_neg (by simp [hdata])

/-! ## FLUSH (R125) -/

section
variable {kept es : List TxEntry} {e : TxEntry}

theorem updateEntry_append_cons (h : ∀ x ∈ kept, x.ref ≠ e.ref) (f : TxEntry → TxEntry) :
    updateEntry (kept ++ e :: es) e.ref f = kept ++ f e :: es := by
  induction kept with
  | nil => simp [updateEntry, updateFirst]
  | cons x xs ih =>
    have hx : (x.ref == e.ref) = false := beq_false_of_ne (h x (by simp))
    have hxs := ih fun y hy => h y (by simp [hy])
    unfold updateEntry at *
    simp only [List.cons_append, updateFirst, hx, Bool.false_eq_true, if_false, hxs]

theorem removeEntry_append_cons (h : ∀ x ∈ kept, x.ref ≠ e.ref) :
    removeEntry (kept ++ e :: es) e.ref = kept ++ es := by
  rw [removeEntry, List.eraseP_append_right _ (by simpa using h), List.eraseP_cons_of_pos (by simp)]

/-- The entry with a cancel deferred against it (R122). -/
def TxEntry.defer (e : TxEntry) : TxEntry := { e with cancelPending := true }

/-- What a cancel leaves of the entry it meets: itself with the cancel deferred when it is IN_FLIGHT (R121). -/
def TxEntry.leftByCancel (e : TxEntry) : List TxEntry := if e.state = .inFlight then [e.defer] else []

/-- The entries before and behind the one that a cancel meets keep their places, and the references stay distinct. -/
theorem State.cancelEntry_txq {s : State} (hq : s.txq = kept ++ e :: es) (hnodup : (s.txq.map (·.ref)).Nodup) :
    (s.cancelEntry e).txq = kept ++ e.leftByCancel ++ es ∧ ((s.cancelEntry e).txq.map (·.ref)).Nodup := by
  have hfound : findEntry s.txq e.ref = some e := findEntry_mem hnodup (by simp [hq])
  rw [hq] at hnodup
  have hkept : ∀ x ∈ kept, x.ref ≠ e.ref := by
    rw [List.map_append, List.nodup_append] at hnodup
    obtain ⟨-, -, hapart⟩ := hnodup
    exact fun x hx => hapart _ (List.mem_map_of_mem hx) _ (by simp)
  have htxq : (s.cancelEntry e).txq = kept ++ e.leftByCancel ++ es := by
    unfold State.cancelEntry TxEntry.leftByCancel
    split
    · rw [State.setTxq_txq, hq, updateEntry_append_cons hkept, List.append_assoc]
      rfl
    · rw [State.concludeCancelled_eq hfound, List.append_nil]
      simp only [hq]
      exact removeEntry_append_cons hkept
  refine ⟨htxq, htxq ▸ hnodup.sublist ?_⟩
  unfold TxEntry.leftByCancel
  split
  · simp [TxEntry.defer]
  · simp

/-- A property of the state that a cancel of one of its entries keeps is kept by a cancel of each, oldest first. -/
theorem State.cancelAll_keeps {P : State → Prop}
    (hp : ∀ s e, findEntry s.txq e.ref = some e → P s → P (s.cancelEntry e)) (es kept : List TxEntry) {s : State}
    (hq : s.txq = kept ++ es) (hnodup : (s.txq.map (·.ref)).Nodup) (h : P s) : P (es.foldl State.cancelEntry s) := by
  induction es generalizing kept s with
  | nil => exact h
  | cons e es ih =>
    obtain ⟨htxq, hnodup'⟩ := State.cancelEntry_txq hq hnodup
    exact ih _ htxq hnodup' (hp s e (findEntry_mem hnodup (by simp [hq])) h)

end

/-- What is left of the pool when entries have given up their blocks, one after another. -/
def Pool.releaseAll (p : Pool) (es : List TxEntry) : Pool := es.foldl (fun p e => p.release (.transmit e.ref)) p

theorem Pool.releaseAll_cells (es : List TxEntry) (p : Pool) : (p.releaseAll es).cells = p.cells := by
  induction es generalizing p with
  | nil => rfl
  | cons e es ih => exact ih (p.release (.transmit e.ref))

/-- A block is FREE afterwards when one of the entries held it, and keeps its holder otherwise (R129). -/
theorem Pool.releaseAll_holders (es : List TxEntry) (p : Pool) :
    (p.releaseAll es).holders = p.holders.map fun h => if ∃ e ∈ es, h = .transmit e.ref then .free else h := by
  induction es generalizing p with
  | nil => simp [Pool.releaseAll]
  | cons e es ih =>
    have hcons : p.releaseAll (e :: es) = (p.release (.transmit e.ref)).releaseAll es := rfl
    rw [hcons, ih, Pool.release, List.map_map]
    refine List.map_congr_left fun h _ => ?_
    by_cases he : h = .transmit e.ref <;> simp [he]

/-- An entry is not IN_FLIGHT, so that a FLUSH concludes it at once (R125). -/
def TxEntry.flushes (e : TxEntry) : Bool := e.state != .inFlight

/-- Cancels of every entry from some place of the queue on, oldest first (R125). -/
theorem State.cancelAll_eq (es kept : List TxEntry) {s : State} (hq : s.txq = kept ++ es)
    (hnodup : (s.txq.map (·.ref)).Nodup) :
    es.foldl State.cancelEntry s = { s with
      txq := kept ++ (es.filter fun e => e.state == .inFlight).map TxEntry.defer
      compq := s.compq ++ (es.filter TxEntry.flushes).map fun e =>
        e.record (if e.attemptedEver = true then .cancelledAfterAttempt else .cancelled)
      pool := s.pool.releaseAll (es.filter TxEntry.flushes)
      peers := (es.filter fun e => e.flushes && e.dest != 31).foldl
        (fun ps e => ps.modify e.dest (cancelClaims e)) s.peers } := by
  induction es generalizing kept s with
  | nil =>
    simp only [List.append_nil] at hq
    simp [Pool.releaseAll, ← hq]
  | cons e es ih =>
    obtain ⟨htxq, hnodup'⟩ := State.cancelEntry_txq hq hnodup
    rw [List.foldl_cons, ih _ htxq hnodup']
    by_cases hflight : e.state = .inFlight
    · simp only [State.cancelEntry, hflight, if_true, TxEntry.leftByCancel, TxEntry.flushes, List.filter_cons]
      simp [State.setTxq]
    · have hflushes : e.flushes = true := by simp [TxEntry.flushes, hflight]
      have hdata : (e.isCast = true) ↔ ¬ (e.dest != 31) = true := by simp [TxEntry.isCast_iff]
      have hfound : findEntry s.txq e.ref = some e := findEntry_mem hnodup (by simp [hq])
      rw [State.cancelEntry, if_neg hflight, State.concludeCancelled_eq hfound]
      simp only [TxEntry.leftByCancel, if_neg hflight, List.filter_cons, hflushes, beq_eq_false_iff_ne.2 hflight,
        Bool.true_and, Bool.false_eq_true, if_true, if_false, List.append_nil, List.map_cons, List.append_assoc,
        List.singleton_append, hdata]
      by_cases hdest : (e.dest != 31) = true
      · simp only [hdest, if_true, not_true_eq_false, if_false, List.foldl_cons]
        rfl
      · simp only [hdest, Bool.false_eq_true, not_false_eq_true, if_true, if_false]
        rfl

/-- Settles O46: the close cancels every entry, oldest first (`State.cancelAll_eq`). -/
theorem flushCancelsEveryEntry : Obligations.FlushCancelsEveryEntry := by
  rintro dt s u hopen hcommand hs hnodup rfl
  have hflush : (s.advance dt).flushAll =
      (s.txq.foldl State.cancelEntry (s.advance dt),
        if s.txq.any (fun e => e.state == .inFlight) then .deferred else .ok) := rfl
  have hexec : exec (.flush dt .close) s = _ :=
    congrArg Host.Outcome.next
      ((State.hostStep_close (s := s.advance dt) hopen hcommand _).trans
        (State.closeCommand_acts (s := s.advance dt) hs rfl hflush))
  refine ⟨_, hexec, ?_, ?_, fun b => ?_⟩ <;> rw [State.cancelAll_eq (s := s.advance dt) s.txq [] rfl hnodup]
  · rfl
  · exact Pool.releaseAll_cells ..
  · have hheld (h : Holder) : (∃ e ∈ s.txq.filter TxEntry.flushes, h = .transmit e.ref) ↔
        ∃ e ∈ s.txq, e.state ≠ .inFlight ∧ h = .transmit e.ref := by
      simp [TxEntry.flushes, and_assoc]
    simp only [State.closedWith, Pool.releaseAll_holders, List.getElem?_map, hheld]
    rfl

end Sys2Proof.Machine
end

section
/-! The laws of selection and of the peer table: what a move does to the entries of the transmit queue, to the entry the
watch names, and to the references of the peer table. -/

namespace Sys2Proof.Machine

open Sys2Proof

/-! ## The entries of a changed queue -/

section
variable {q : List TxEntry} {ref : Nat} {e x : TxEntry} {f : TxEntry → TxEntry}

theorem findEntry_mem_queue (h : findEntry q ref = some e) : e ∈ q := List.mem_of_find?_eq_some h

theorem updateEntry_cons (y : TxEntry) (ys : List TxEntry) (ref : Nat) (f : TxEntry → TxEntry) :
    updateEntry (y :: ys) ref f = if y.ref = ref then f y :: ys else y :: updateEntry ys ref f := by
  by_cases h : y.ref = ref <;> simp [updateEntry, updateFirst, h]

/-- With no entry of the reference there is nothing to change. -/
theorem updateEntry_missing (h : findEntry q ref = none) : updateEntry q ref f = q := by
  induction q with
  | nil => rfl
  | cons y ys ih =>
    rw [findEntry, List.find?_cons] at h
    rw [updateEntry_cons]
    cases hy : y.ref == ref with
    | true => simp [hy] at h
    | false =>
      rw [hy] at h
      rw [if_neg (by simpa using hy), ih h]

theorem removeEntry_cons (y : TxEntry) (ys : List TxEntry) (ref : Nat) :
    removeEntry (y :: ys) ref = if y.ref = ref then ys else y :: removeEntry ys ref := by
  by_cases h : y.ref = ref <;> simp [removeEntry, h]

theorem updateEntry_refs (hf : ∀ x, (f x).ref = x.ref) : (updateEntry q ref f).map (·.ref) = q.map (·.ref) := by
  induction q with
  | nil => rfl
  | cons y ys ih =>
    rw [updateEntry_cons]
    split
    · simp [hf]
    · simp [ih]

/-- With distinct references the entries of a changed queue are the changed one and the others. -/
theorem mem_updateEntry_iff (hnodup : (q.map (·.ref)).Nodup) :
    x ∈ updateEntry q ref f ↔ x ∈ q ∧ x.ref ≠ ref ∨ ∃ e ∈ q, e.ref = ref ∧ x = f e := by
  induction q with
  | nil => simp [updateEntry, updateFirst]
  | cons y ys ih =>
    rw [List.map_cons, List.nodup_cons] at hnodup
    obtain ⟨hy, hys⟩ := hnodup
    have hapart : ∀ z ∈ ys, z.ref ≠ y.ref := fun z hz heq => hy (heq ▸ List.mem_map_of_mem hz)
    rw [updateEntry_cons]
    by_cases h : y.ref = ref
    · subst h
      simp only [if_true, List.mem_cons]
      constructor
      · rintro (rfl | hx)
        · exact .inr ⟨y, .inl rfl, rfl, rfl⟩
        · exact .inl ⟨.inr hx, hapart x hx⟩
      · rintro (⟨rfl | hx, hne⟩ | ⟨e, rfl | he, href, rfl⟩)
        · exact absurd rfl hne
        · exact .inr hx
        · exact .inl rfl
        · exact absurd href (hapart e he)
    · simp only [if_neg h, List.mem_cons, ih hys]
      constructor
      · rintro (rfl | ⟨hx, hne⟩ | ⟨e, he, href, rfl⟩)
        · exact .inl ⟨.inl rfl, h⟩
        · exact .inl ⟨.inr hx, hne⟩
        · exact .inr ⟨e, .inr he, href, rfl⟩
      · rintro (⟨rfl | hx, hne⟩ | ⟨e, rfl | he, href, rfl⟩)
        · exact .inl rfl
        · exact .inr (.inl ⟨hx, hne⟩)
        · exact absurd href h
        · exact .inr (.inr ⟨e, he, href, rfl⟩)

/-- With distinct references the entries left are those of the other references. -/
theorem mem_removeEntry_iff (hnodup : (q.map (·.ref)).Nodup) : x ∈ removeEntry q ref ↔ x ∈ q ∧ x.ref ≠ ref := by
  induction q with
  | nil => simp [removeEntry]
  | cons y ys ih =>
    rw [List.map_cons, List.nodup_cons] at hnodup
    obtain ⟨hy, hys⟩ := hnodup
    rw [removeEntry_cons]
    by_cases h : y.ref = ref
    · subst h
      have hapart (hx : x ∈ ys) : x.ref ≠ y.ref := fun heq => hy (heq ▸ List.mem_map_of_mem hx)
      simp only [if_true, List.mem_cons]
      constructor
      · exact fun hx => ⟨.inr hx, hapart hx⟩
      · rintro ⟨rfl | hx, hne⟩
        · exact absurd rfl hne
        · exact hx
    · simp only [if_neg h, List.mem_cons, ih hys]
      constructor
      · rintro (rfl | ⟨hx, hne⟩)
        · exact ⟨.inl rfl, h⟩
        · exact ⟨.inr hx, hne⟩
      · rintro ⟨rfl | hx, hne⟩
        · exact .inl rfl
        · exact .inr ⟨hx, hne⟩

theorem removeEntry_sublist (q : List TxEntry) (ref : Nat) : (removeEntry q ref).Sublist q := List.eraseP_sublist

/-- With distinct references an entry is the only one of its own. -/
theorem eq_of_ref (hnodup : (q.map (·.ref)).Nodup) (he : e ∈ q) (hx : x ∈ q) (h : x.ref = e.ref) : x = e := by
  have hfound := findEntry_mem hnodup hx
  rw [h, findEntry_mem hnodup he] at hfound
  exact (Option.some.inj hfound).symm

end

/-! ## The conclusion, the result and the return of an entry, said once -/

/-- The state in which an entry has concluded (R116). -/
def State.concludedAs (s : State) (e : TxEntry) (o : TxOutcome) (refresh : Bool) : State :=
  { s with
    txq := removeEntry s.txq e.ref
    compq := s.compq ++ [e.record o]
    pool := s.pool.release (.transmit e.ref)
    peers := if e.isCast = true then s.peers else s.peers.modify e.dest fun p => p.concluded e.ref o refresh }

section
variable {s : State} {e : TxEntry}

theorem State.conclude_concludedAs {ref : Nat} (h : findEntry s.txq ref = some e) (o : TxOutcome) (refresh : Bool) :
    s.conclude ref o refresh = s.concludedAs e o refresh := by
  obtain ⟨htxq, hcompq, hpool, hpeers⟩ := State.conclude_found h o refresh
  rw [State.conclude_frame, htxq, hcompq, hpool, hpeers, ← findEntry_ref h]
  rfl

end

section
variable {s : State} {e : TxEntry} {r : WatchResult}

/-- A result that concludes the entry IN_FLIGHT, of whatever class, does so with its counts updated (R114, R116). -/
theorem State.applyWatchResult_concludedAs {o : TxOutcome} {refresh : Bool} (h : findEntry s.txq e.ref = some e)
    (hflight : e.state = .inFlight) (heffect : (e.countResult r).resultEffect r = .conclude o refresh) :
    s.applyWatchResult e.ref r = s.concludedAs (e.countResult r) o refresh := by
  have hcounted := findEntry_updateEntry (f := fun x => x.countResult r) (fun x => x.countResult_ref r) h
  have hconclude := State.conclude_concludedAs
    (s := s.setTxq (updateEntry s.txq e.ref fun x => x.countResult r)) hcounted o refresh
  simp only [State.applyWatchResult, h, hflight, if_true, heffect, hconclude, State.concludedAs,
    TxEntry.countResult_ref, State.setTxq_txq, removeEntry_updateEntry fun x => x.countResult_ref r]
  rfl

/-- A result for an entry that is gone, or not IN_FLIGHT, does nothing (R114). -/
theorem State.applyWatchResult_idle {ref : Nat} (h : ∀ e, findEntry s.txq ref = some e → e.state ≠ .inFlight) :
    s.applyWatchResult ref r = s := by
  unfold State.applyWatchResult
  split
  · rfl
  · rename_i e he
    exact if_neg (h e he)

end

/-- What a watch result does: nothing where no entry IN_FLIGHT has the reference, and otherwise the effect of the result
on the entry with its counts updated (R114). -/
theorem State.applyWatchResult_cases (s : State) (ref : Nat) (r : WatchResult) :
    (s.applyWatchResult ref r = s ∧ ∀ e, findEntry s.txq ref = some e → e.state ≠ .inFlight) ∨
      ∃ e, findEntry s.txq ref = some e ∧ e.state = .inFlight ∧
        ((∃ o refresh, (e.countResult r).resultEffect r = .conclude o refresh ∧
            s.applyWatchResult ref r = s.concludedAs (e.countResult r) o refresh) ∨
          ∃ refresh, (e.countResult r).resultEffect r = .outstanding refresh ∧
            s.applyWatchResult ref r =
              { outstandingWith s e (e.countResult r).attempts (e.countResult r).busyAnswers with
                peers := if refresh = true then s.peers.modify e.dest refreshed else s.peers }) := by
  by_cases hfound : ∃ e, findEntry s.txq ref = some e ∧ e.state = .inFlight
  · obtain ⟨e, h, hflight⟩ := hfound
    refine .inr ⟨e, h, hflight, ?_⟩
    obtain rfl := findEntry_ref h
    cases heffect : (e.countResult r).resultEffect r with
    | conclude o refresh => exact .inl ⟨o, refresh, rfl, State.applyWatchResult_concludedAs h hflight heffect⟩
    | outstanding refresh => exact .inr ⟨refresh, rfl, State.applyWatchResult_returns h hflight heffect⟩
  · have hidle : ∀ e, findEntry s.txq ref = some e → e.state ≠ .inFlight := fun e h hflight => hfound ⟨e, h, hflight⟩
    exact .inl ⟨State.applyWatchResult_idle hidle, hidle⟩

/-- The entry back in its return state (R113). -/
def TxEntry.goesBack (e : TxEntry) : TxEntry := { e with state := e.returnState }

/-- What the end of an attempt does: nothing where no entry has the reference; the deferred cancel; or the return to the
return state (R113, R123). -/
theorem State.returnEntry_cases (s : State) (ref : Nat) :
    s.returnEntry ref = s ∨
      ∃ e, findEntry s.txq ref = some e ∧
        (e.cancelPending = true ∧ s.returnEntry ref = s.concludeCancelled e ∨
          e.cancelPending = false ∧ s.returnEntry ref = { s with
            txq := updateEntry s.txq ref TxEntry.goesBack
            peers :=
              if e.isCast = false ∧ e.returnState = .waiting then s.peers.modify e.dest fun p => p.clearOutstanding ref
              else s.peers }) := by
  cases h : findEntry s.txq ref with
  | none => exact .inl (by simp [State.returnEntry, h])
  | some e =>
    refine .inr ⟨e, rfl, ?_⟩
    cases hc : e.cancelPending with
    | true => exact .inl ⟨rfl, by simp [State.returnEntry, h, hc]⟩
    | false =>
      refine .inr ⟨rfl, ?_⟩
      obtain ⟨htxq, hcompq, hpool, hpeers⟩ := State.returnEntry_returned h hc
      rw [State.returnEntry_frame, htxq, hcompq, hpool, hpeers]
      rfl

/-- The entry back in OUTSTANDING with the given counts (R114). -/
def TxEntry.outstandingAt (attempts busy : Nat) (e : TxEntry) : TxEntry :=
  { e with state := .outstanding, attempts := attempts, busyAnswers := busy }

theorem TxEntry.countResult_cancelPending (e : TxEntry) (r : WatchResult) :
    (e.countResult r).cancelPending = e.cancelPending := by rw [TxEntry.countResult_frame]

/-- An entry returns to OUTSTANDING only with no cancel deferred (R123). -/
theorem TxEntry.resultEffect_outstanding {e : TxEntry} {r : WatchResult} {refresh : Bool}
    (h : e.resultEffect r = .outstanding refresh) : e.cancelPending = false := by
  rw [← Bool.not_eq_true]
  intro hc
  unfold TxEntry.resultEffect at h
  rw [if_pos hc, if_pos hc, if_pos hc] at h
  split at h <;> cases h

/-! ## The law of selection (R108) -/

/-- What the law says of each entry, with the references below `n` given out (R103, R122). -/
def TxEntry.Lawful (n : Nat) (e : TxEntry) : Prop :=
  e.ref < n ∧ e.returnState ≠ .inFlight ∧ (e.cancelPending = true → e.state = .inFlight) ∧
    (e.isCast = true → e.state ≠ .outstanding ∧ e.returnState ≠ .outstanding)

/-- An entry that waits, and would return to WAITING. -/
def TxEntry.Waits (e : TxEntry) : Prop := e.state = .waiting ∧ e.returnState = .waiting

/-- What the law says of the transmit queue (R108). -/
structure QueueLaw (n : Nat) (q : List TxEntry) : Prop where
  nodup : (q.map (·.ref)).Nodup
  lawful : ∀ e ∈ q, e.Lawful n
  waits : ∀ e ∈ q.tail, e.Waits

/-- What the law says of the entry that the watch names (R93). -/
def WatchLaw (n : Nat) (q : List TxEntry) (w : Watch) : Prop :=
  ∀ x, w.watched = some x → x.entry < n ∧ ∀ e ∈ q, e.ref = x.entry → e.isCast = false

theorem State.headLaw_iff (s : State) :
    s.headLaw ↔ QueueLaw s.nextRef s.txq ∧ WatchLaw s.nextRef s.txq s.watch :=
  ⟨fun ⟨hnodup, hlawful, hwaits, hwatch⟩ => ⟨⟨hnodup, hlawful, hwaits⟩, hwatch⟩,
    fun ⟨l, hwatch⟩ => ⟨l.nodup, l.lawful, l.waits, hwatch⟩⟩

/-- Under the law of selection references are distinct. -/
theorem State.headLaw.nodup {s : State} (l : s.headLaw) : (s.txq.map (·.ref)).Nodup := by
  obtain ⟨hnodup, -⟩ := l
  exact hnodup

section
variable {n ref : Nat} {q u : List TxEntry} {e : TxEntry} {f : TxEntry → TxEntry} {w : Watch}

/-- An entry that is not the head waits. -/
theorem QueueLaw.head_or_waits (l : QueueLaw n q) (he : e ∈ q) : q.head? = some e ∨ e.Waits := by
  cases q with
  | nil => cases he
  | cons y ys =>
    rcases List.mem_cons.1 he with rfl | hmem
    · exact .inl rfl
    · exact .inr (l.waits e hmem)

/-- An entry that does not wait is the head. -/
theorem QueueLaw.head (l : QueueLaw n q) (he : e ∈ q) (hs : e.state ≠ .waiting) : q.head? = some e :=
  (l.head_or_waits he).resolve_right fun h => hs h.1

/-- Entries that leave do not disturb the law. -/
theorem QueueLaw.sublist (l : QueueLaw n q) (h : u.Sublist q) : QueueLaw n u := by
  refine ⟨l.nodup.sublist (h.map _), fun e he => l.lawful e (h.mem he), fun e he => l.waits e ?_⟩
  cases h with
  | slnil => exact he
  | cons y h => exact h.mem (List.mem_of_mem_tail he)
  | cons_cons y h => exact h.mem he

/-- A change of one entry keeps the law when the changed entry obeys it, and waits unless it is the head. -/
theorem QueueLaw.update (l : QueueLaw n q) (hf : ∀ x, (f x).ref = x.ref)
    (h : ∀ e, findEntry q ref = some e → (f e).Lawful n ∧ ((f e).Waits ∨ q.head? = some e)) :
    QueueLaw n (updateEntry q ref f) := by
  have hchanged {e : TxEntry} (he : e ∈ q) (href : e.ref = ref) :
      (f e).Lawful n ∧ ((f e).Waits ∨ q.head? = some e) := h e (href ▸ findEntry_mem l.nodup he)
  refine ⟨by rw [updateEntry_refs hf]; exact l.nodup, fun x hx => ?_, fun x hx => ?_⟩
  · rcases (mem_updateEntry_iff l.nodup).1 hx with ⟨hold, -⟩ | ⟨e, he, href, rfl⟩
    · exact l.lawful x hold
    · obtain ⟨hlawful, -⟩ := hchanged he href
      exact hlawful
  · cases q with
    | nil => cases hx
    | cons y ys =>
      rw [updateEntry_cons] at hx
      split at hx
      · exact l.waits x hx
      · rename_i hne
        have hnodup : (ys.map (·.ref)).Nodup := (List.nodup_cons.1 l.nodup).2
        rcases (mem_updateEntry_iff hnodup).1 hx with ⟨hold, -⟩ | ⟨e, he, href, rfl⟩
        · exact l.waits x hold
        · obtain ⟨-, hwaits | hhead⟩ := hchanged (List.mem_cons_of_mem y he) href
          · exact hwaits
          · exact absurd (Option.some.inj hhead ▸ href) hne

/-- An entry appended waits (R105). -/
theorem QueueLaw.append (l : QueueLaw n q) (href : e.ref = n) (hwaits : e.Waits) (hc : e.cancelPending = false) :
    QueueLaw (n + 1) (q ++ [e]) := by
  obtain ⟨hstate, hreturn⟩ := hwaits
  refine ⟨?_, fun x hx => ?_, fun x hx => ?_⟩
  · rw [List.map_append, List.nodup_append]
    refine ⟨l.nodup, by simp, ?_⟩
    rintro a ha b hb rfl
    obtain ⟨x, hx, rfl⟩ := List.mem_map.1 ha
    have hlt := (l.lawful x hx).1
    simp only [List.map_cons, List.map_nil, List.mem_singleton] at hb
    omega
  · rcases List.mem_append.1 hx with hold | hnew
    · obtain ⟨hlt, hrest⟩ := l.lawful x hold
      exact ⟨Nat.lt_succ_of_lt hlt, hrest⟩
    · rw [List.mem_singleton.1 hnew]
      exact ⟨by omega, by simp [hreturn], by simp [hc], by simp [hstate, hreturn]⟩
  · cases q with
    | nil => cases hx
    | cons y ys =>
      rcases List.mem_append.1 hx with hold | hnew
      · exact l.waits x hold
      · rw [List.mem_singleton.1 hnew]
        exact ⟨hstate, hreturn⟩

/-- Of two queues, the second with no other entries under the references of the first. -/
theorem WatchLaw.of_entries (l : WatchLaw n q w) (h : ∀ x ∈ u, ∃ e ∈ q, e.ref = x.ref ∧ e.isCast = x.isCast) :
    WatchLaw n u w := by
  intro x hx
  obtain ⟨hlt, hdata⟩ := l x hx
  refine ⟨hlt, fun y hy href => ?_⟩
  obtain ⟨e, he, heref, hecast⟩ := h y hy
  exact hecast ▸ hdata e he (heref.trans href)

theorem WatchLaw.sublist (l : WatchLaw n q w) (h : u.Sublist q) : WatchLaw n u w :=
  l.of_entries fun x hx => ⟨x, h.mem hx, rfl, rfl⟩

/-- An offered entry is the head (R108). -/
theorem State.headLaw.offer {s : State} (l : s.headLaw) (h : Machine.offer s.txq = some e) :
    s.txq.head? = some e ∧ e.state ≠ .inFlight := by
  have hmem := offer_mem h
  have hnone : ∀ x ∈ s.txq, x.state ≠ .inFlight := fun x hx hflight => by
    rw [offer_inFlight ⟨x, hx, hflight⟩] at h
    cases h
  refine ⟨?_, hnone e hmem⟩
  cases hq : s.txq with
  | nil => rw [hq] at hmem; cases hmem
  | cons y ys => rw [List.head?_cons, ← h, offer_head l hq (hnone y (by simp [hq]))]

end

/-! ## Every move keeps the law of selection -/

section
variable {s t : State} {e : TxEntry}

/-- The law looks at the queue, the watch and the supply of references. -/
theorem State.headLaw.of_sublist (l : s.headLaw) (hq : t.txq.Sublist s.txq) (hw : t.watch = s.watch)
    (hn : t.nextRef = s.nextRef) : t.headLaw := by
  obtain ⟨l, lw⟩ := s.headLaw_iff.1 l
  rw [State.headLaw_iff, hw, hn]
  exact ⟨l.sublist hq, lw.sublist hq⟩

/-- A change of one entry that keeps its reference and its class. -/
theorem State.headLaw.update (l : s.headLaw) {ref : Nat} {f : TxEntry → TxEntry}
    (hf : ∀ x, (f x).ref = x.ref ∧ (f x).isCast = x.isCast)
    (h : ∀ e, findEntry s.txq ref = some e → (f e).Lawful s.nextRef ∧ ((f e).Waits ∨ s.txq.head? = some e)) :
    (s.setTxq (updateEntry s.txq ref f)).headLaw := by
  obtain ⟨l, lw⟩ := s.headLaw_iff.1 l
  refine (State.headLaw_iff _).2 ⟨l.update (fun x => (hf x).1) h, lw.of_entries fun x hx => ?_⟩
  rcases (mem_updateEntry_iff l.nodup).1 hx with ⟨hold, -⟩ | ⟨e, he, -, rfl⟩
  · exact ⟨x, hold, rfl, rfl⟩
  · exact ⟨e, he, (hf e).1.symm, (hf e).2.symm⟩

theorem State.headLaw.watch (l : s.headLaw) {w : Watch} (hw : WatchLaw s.nextRef s.txq w) : (s.setWatch w).headLaw :=
  (State.headLaw_iff _).2 ⟨(s.headLaw_iff.1 l).1, hw⟩

theorem State.headLaw.conclude (l : s.headLaw) (ref : Nat) (o : TxOutcome) (refresh : Bool) :
    (s.conclude ref o refresh).headLaw := by
  cases h : findEntry s.txq ref with
  | none => rwa [State.conclude_missing h]
  | some e =>
    rw [State.conclude_concludedAs h]
    exact l.of_sublist (removeEntry_sublist ..) rfl rfl

theorem State.headLaw.concludeCancelled (l : s.headLaw) (e : TxEntry) : (s.concludeCancelled e).headLaw := by
  unfold State.concludeCancelled
  split <;> exact l.conclude ..

/-- The entry taken by the emitter was the head and not IN_FLIGHT. -/
theorem State.headLaw.select (l : s.headLaw) (h : Machine.offer s.txq = some e) :
    (s.setTxq (updateEntry s.txq e.ref TxEntry.select)).headLaw := by
  obtain ⟨lq, -⟩ := s.headLaw_iff.1 l
  refine l.update (fun _ => ⟨rfl, rfl⟩) fun x hx => ?_
  obtain ⟨hhead, hstate⟩ := l.offer h
  rw [findEntry_mem lq.nodup (offer_mem h)] at hx
  cases hx
  obtain ⟨hlt, -, -, hcast⟩ := lq.lawful e (offer_mem h)
  exact ⟨⟨hlt, hstate, fun _ => rfl, fun hc => ⟨nofun, (hcast hc).1⟩⟩, .inr hhead⟩

/-- The entry that the emitter refuses is the head with no cancel deferred, and holds its state (R110). -/
theorem State.headLaw.notStarted_eq (l : s.headLaw) (h : Machine.offer s.txq = some e) :
    e.cancelPending = false ∧ s.notStarted e = { s with
      txq := updateEntry s.txq e.ref TxEntry.keptState
      peers :=
        if e.dest ≠ 31 ∧ e.state = .waiting then s.peers.modify e.dest fun p => p.clearOutstanding e.ref
        else s.peers } := by
  obtain ⟨lq, -⟩ := s.headLaw_iff.1 l
  obtain ⟨-, hstate⟩ := l.offer h
  obtain ⟨-, -, hpending, -⟩ := lq.lawful e (offer_mem h)
  have hc : e.cancelPending = false := Bool.eq_false_iff.2 fun hc => hstate (hpending hc)
  exact ⟨hc, State.notStarted_eq (findEntry_mem lq.nodup (offer_mem h)) hc⟩

theorem State.headLaw.keptState (l : s.headLaw) (h : Machine.offer s.txq = some e) :
    (s.setTxq (updateEntry s.txq e.ref TxEntry.keptState)).headLaw := by
  obtain ⟨lq, -⟩ := s.headLaw_iff.1 l
  refine l.update (fun _ => ⟨rfl, rfl⟩) fun x hx => ?_
  obtain ⟨hhead, hstate⟩ := l.offer h
  rw [findEntry_mem lq.nodup (offer_mem h)] at hx
  cases hx
  obtain ⟨hlt, -, hpending, hcast⟩ := lq.lawful e (offer_mem h)
  exact ⟨⟨hlt, hstate, hpending, fun hc => ⟨(hcast hc).1, (hcast hc).1⟩⟩, .inr hhead⟩

theorem State.headLaw.returnEntry (l : s.headLaw) (ref : Nat) : (s.returnEntry ref).headLaw := by
  rcases s.returnEntry_cases ref with heq | ⟨e, h, ⟨-, heq⟩ | ⟨hc, heq⟩⟩ <;> rw [heq]
  · exact l
  · exact l.concludeCancelled e
  · refine l.update (ref := ref) (f := TxEntry.goesBack) (fun _ => ⟨rfl, rfl⟩) fun x hx => ?_
    obtain ⟨lq, -⟩ := s.headLaw_iff.1 l
    rw [h] at hx
    cases hx
    obtain ⟨hlt, hreturn, -, hcast⟩ := lq.lawful e (findEntry_mem_queue h)
    refine ⟨⟨hlt, hreturn, fun g => ?_, fun g => ⟨(hcast g).2, (hcast g).2⟩⟩, ?_⟩
    · exact absurd g (by simp [TxEntry.goesBack, hc])
    · rcases lq.head_or_waits (findEntry_mem_queue h) with hhead | ⟨-, hwaits⟩
      · exact .inr hhead
      · exact .inl ⟨hwaits, hwaits⟩

/-- The watch names no CAST, so that the entry back in OUTSTANDING is a DATA. -/
theorem State.headLaw.result (l : s.headLaw) {w : Watched} (hw : s.watch.watched = some w) (r : WatchResult) :
    ((s.setWatch .shut).applyWatchResult w.entry r).headLaw := by
  have lshut : (s.setWatch .shut).headLaw := l.watch nofun
  obtain ⟨lq, lw⟩ := s.headLaw_iff.1 l
  rcases (s.setWatch .shut).applyWatchResult_cases w.entry r with
    ⟨heq, -⟩ | ⟨e, h, hflight, ⟨o, refresh, -, heq⟩ | ⟨refresh, heffect, heq⟩⟩ <;> rw [heq]
  · exact lshut
  · exact lshut.of_sublist (removeEntry_sublist ..) rfl rfl
  · have hmem : e ∈ s.txq := findEntry_mem_queue h
    have hdata : e.isCast = false := (lw w hw).2 e hmem (findEntry_ref h)
    have hpending : e.cancelPending = false :=
      (e.countResult_cancelPending r).symm.trans (TxEntry.resultEffect_outstanding heffect)
    refine lshut.update (ref := e.ref)
      (f := TxEntry.outstandingAt (e.countResult r).attempts (e.countResult r).busyAnswers)
      (fun _ => ⟨rfl, rfl⟩) fun x hx => ?_
    obtain rfl : e = x := Option.some.inj ((findEntry_mem lq.nodup hmem).symm.trans hx)
    obtain ⟨hlt, hreturn, -, -⟩ := lq.lawful e hmem
    refine ⟨⟨hlt, hreturn, fun g => ?_, fun g => ?_⟩, .inr (lq.head hmem (by simp [hflight]))⟩
    · exact absurd g (by simp [TxEntry.outstandingAt, hpending])
    · exact absurd (hdata.symm.trans g) (by decide)

/-- A cancel deferred meets the entry IN_FLIGHT (R122). -/
theorem State.headLaw.cancelEntry (l : s.headLaw) (h : findEntry s.txq e.ref = some e) : (s.cancelEntry e).headLaw := by
  unfold State.cancelEntry
  split
  · rename_i hflight
    refine l.update (f := TxEntry.defer) (fun _ => ⟨rfl, rfl⟩) fun x hx => ?_
    obtain rfl : e = x := Option.some.inj (h.symm.trans hx)
    obtain ⟨lq, -⟩ := s.headLaw_iff.1 l
    obtain ⟨hlt, hreturn, -, hcast⟩ := lq.lawful e (findEntry_mem_queue h)
    exact ⟨⟨hlt, hreturn, fun _ => hflight, hcast⟩, .inr (lq.head (findEntry_mem_queue h) (by simp [hflight]))⟩
  · exact l.concludeCancelled e

/-- The entry that a CANCEL finds is found by its reference. -/
theorem State.headLaw.findTag (l : s.headLaw) {tag : Byte} (h : Machine.findTag s.txq tag = some e) :
    findEntry s.txq e.ref = some e :=
  findEntry_mem l.nodup (List.mem_of_find?_eq_some h)

/-- References given out to entries and records alike (R103, R140). -/
theorem State.headLaw.appendEntry (l : s.headLaw) (dest : Nat) (tag : Byte) (len : Nat) (payload : List Byte) :
    (s.appendEntry dest tag len payload).headLaw := by
  obtain ⟨lq, lw⟩ := s.headLaw_iff.1 l
  refine (State.headLaw_iff _).2 ⟨lq.append rfl ⟨rfl, rfl⟩ rfl, fun x hx => ?_⟩
  obtain ⟨hlt, hdata⟩ := lw x hx
  refine ⟨Nat.lt_succ_of_lt hlt, fun y hy href => ?_⟩
  rcases List.mem_append.1 hy with hold | hnew
  · exact hdata y hold href
  · rw [List.mem_singleton.1 hnew] at href
    exact absurd href (Nat.ne_of_gt hlt)

/-- A reference given out leaves the law to those below it. -/
theorem State.headLaw.supply (l : s.headLaw) (hq : t.txq = s.txq) (hw : t.watch = s.watch)
    (hn : t.nextRef = s.nextRef + 1) : t.headLaw := by
  obtain ⟨lq, lw⟩ := s.headLaw_iff.1 l
  rw [State.headLaw_iff, hq, hw, hn]
  refine ⟨⟨lq.nodup, fun e he => ?_, lq.waits⟩, fun x hx => ?_⟩
  · obtain ⟨hlt, hrest⟩ := lq.lawful e he
    exact ⟨Nat.lt_succ_of_lt hlt, hrest⟩
  · obtain ⟨hlt, hdata⟩ := lw x hx
    exact ⟨Nat.lt_succ_of_lt hlt, hdata⟩

theorem State.headLaw.empty (hq : t.txq = []) (hw : t.watch = .shut) : t.headLaw := by
  rw [State.headLaw_iff, hq, hw]
  exact ⟨⟨List.nodup_nil, nofun, nofun⟩, nofun⟩

end

theorem Move.headLaw {c : Instr} {s t : State} (m : Move c s t) (l : s.headLaw) : t.headLaw := by
  cases m with
  | side h => rw [h]; exact l
  | rotate r _ => exact l
  | watch w h =>
    obtain ⟨-, lw⟩ := s.headLaw_iff.1 l
    refine l.watch fun x hx => ?_
    rcases h with h | h <;> rw [h] at hx
    · cases hx
    · exact lw x hx
  | selectCast e h _ => exact l.select h
  | selectData e q h hdata =>
    have lselected := l.select h
    obtain ⟨lq, -⟩ := s.headLaw_iff.1 l
    refine lselected.watch fun x hx => ?_
    cases hx
    refine ⟨(lq.lawful e (offer_mem h)).1, fun y hy href => ?_⟩
    rcases (mem_updateEntry_iff lq.nodup).1 hy with ⟨-, hne⟩ | ⟨x, hx, hxref, rfl⟩
    · exact absurd href hne
    · rw [eq_of_ref lq.nodup (offer_mem h) hx hxref]
      exact hdata
  | refused e h =>
    rw [(l.notStarted_eq h).2]
    exact l.keptState h
  | counted ref =>
    obtain ⟨lq, -⟩ := s.headLaw_iff.1 l
    exact l.update (fun _ => ⟨rfl, rfl⟩) fun e he =>
      ⟨lq.lawful e (findEntry_mem_queue he), (lq.head_or_waits (findEntry_mem_queue he)).symm⟩
  | sent ref => exact l.conclude ..
  | returned ref => exact l.returnEntry ref
  | result w r h => exact l.result h r
  | cancel tag =>
    unfold State.cancelTag
    split
    · exact l
    · rename_i e h
      exact l.cancelEntry (l.findTag h)
  | flush =>
    exact State.cancelAll_keeps (fun u e h l => l.cancelEntry h) s.txq [] rfl l.nodup l
  | post dt dest tag len payload _ _ => exact l.appendEntry ..
  | record a b f k _ _ => exact l.supply rfl rfl rfl
  | accept a b k seq fresh _ => exact l
  | castLost a b _ => exact l
  | take dt _ =>
    unfold State.removeHeadRecord
    split <;> exact l
  | reap dt _ => exact l
  | pinReset dt _ => exact .empty rfl rfl
  | release dt a b r low _ => exact .empty rfl rfl
  | restart dt _ => exact .empty rfl rfl

/-- Under the law at most one entry does not wait: the head. -/
theorem State.headLaw.one_not_waiting {s : State} (l : s.headLaw) :
    (s.txq.filter fun e => e.state != .waiting).length ≤ 1 := by
  obtain ⟨lq, -⟩ := s.headLaw_iff.1 l
  cases hq : s.txq with
  | nil => simp
  | cons y ys =>
    have hrest : ys.filter (fun e => e.state != .waiting) = [] := by
      refine List.filter_eq_nil_iff.2 fun e he => ?_
      simp [(lq.waits e (by rw [hq]; exact he)).1]
    rw [List.filter_cons, hrest]
    split <;> simp

/-! ## The law of the peer table (R74, R77) -/

/-- The queue holds a DATA entry to station `k` with the reference that does not wait. -/
def named (q : List TxEntry) (k ref : Nat) : Prop :=
  ∃ e ∈ q, e.ref = ref ∧ e.dest = k ∧ e.isCast = false ∧ e.state ≠ .waiting

/-- A peer entry that knows no rx_expect has had no FRESH DATA last (R77). -/
def PeerEntry.RxLawful (p : PeerEntry) : Prop := p.rxExpect = none → p.rxLastFresh = false

/-- The law of the peer table over a transmit queue and the peer entries. -/
structure PeerLaw (q : List TxEntry) (peers : List PeerEntry) : Prop where
  rx : ∀ (k : Nat) (p : PeerEntry), peers[k]? = some p → p.RxLawful
  names : ∀ (k : Nat) (p : PeerEntry), peers[k]? = some p → ∀ ref, p.outstanding = some ref ↔ named q k ref
  returns : ∀ e ∈ q, e.state = .waiting → e.returnState = .waiting

theorem TxState.ne_waiting_iff (x : TxState) : x ≠ .waiting ↔ x = .outstanding ∨ x = .inFlight := by
  cases x <;> decide

theorem State.peerLaw_iff (s : State) : s.peerLaw ↔ PeerLaw s.txq s.peers := by
  constructor
  · rintro ⟨hrx, hnamed, hnames, hreturns⟩
    refine ⟨fun k p hp => hrx p (List.mem_of_getElem? hp), fun k p hp ref => ⟨fun hout => ?_, ?_⟩, hreturns⟩
    · obtain ⟨e, he, href, hdest, hdata, hstate⟩ := hnamed k p ref hp hout
      exact ⟨e, he, href, hdest, hdata, (TxState.ne_waiting_iff _).2 hstate⟩
    · rintro ⟨e, he, rfl, rfl, hdata, hstate⟩
      exact hnames e he hdata ((TxState.ne_waiting_iff _).1 hstate) p hp
  · intro l
    refine ⟨fun p hp => ?_, fun k p ref hp hout => ?_, fun e he hdata hstate p hp => ?_, l.returns⟩
    · obtain ⟨k, hk⟩ := List.mem_iff_getElem?.1 hp
      exact l.rx k p hk
    · obtain ⟨e, he, href, hdest, hdata, hstate⟩ := (l.names k p hp ref).1 hout
      exact ⟨e, he, href, hdest, hdata, (TxState.ne_waiting_iff _).1 hstate⟩
    · exact (l.names e.dest p hp e.ref).2 ⟨e, he, rfl, rfl, hdata, (TxState.ne_waiting_iff _).2 hstate⟩

section
variable {q u : List TxEntry} {peers : List PeerEntry} {e : TxEntry} {f : TxEntry → TxEntry} {k ref : Nat}

/-- The reference of an entry is named by what the entry itself is. -/
theorem named_of_entry (hnodup : (q.map (·.ref)).Nodup) (he : e ∈ q) :
    named q k e.ref ↔ e.dest = k ∧ e.isCast = false ∧ e.state ≠ .waiting := by
  constructor
  · rintro ⟨x, hx, href, hrest⟩
    rwa [eq_of_ref hnodup he hx href] at hrest
  · exact fun hrest => ⟨e, he, rfl, hrest⟩

/-- Other references are named as before the change of an entry. -/
theorem named_updateEntry (hnodup : (q.map (·.ref)).Nodup) (he : e ∈ q)
    (hf : ∀ x, (f x).ref = x.ref ∧ (f x).dest = x.dest) :
    named (updateEntry q e.ref f) k ref ↔
      named q k ref ∧ ref ≠ e.ref ∨ ref = e.ref ∧ e.dest = k ∧ e.isCast = false ∧ (f e).state ≠ .waiting := by
  have hcast : (f e).isCast = e.isCast := by simp [TxEntry.isCast, (hf e).2]
  unfold named
  simp only [mem_updateEntry_iff hnodup]
  constructor
  · rintro ⟨x, ⟨hx, hne⟩ | ⟨y, hy, hyref, rfl⟩, rfl, rfl, hdata, hstate⟩
    · exact .inl ⟨⟨x, hx, rfl, rfl, hdata, hstate⟩, hne⟩
    · obtain rfl := eq_of_ref hnodup he hy hyref
      exact .inr ⟨(hf y).1, (hf y).2.symm, hcast ▸ hdata, hstate⟩
  · rintro (⟨⟨x, hx, rfl, hrest⟩, hne⟩ | ⟨rfl, rfl, hdata, hstate⟩)
    · exact ⟨x, .inl ⟨hx, hne⟩, rfl, hrest⟩
    · exact ⟨f e, .inr ⟨e, he, rfl, rfl⟩, (hf e).1, (hf e).2, hcast.trans hdata, hstate⟩

/-- Other references are named as before an entry left. -/
theorem named_removeEntry (hnodup : (q.map (·.ref)).Nodup) :
    named (removeEntry q e.ref) k ref ↔ named q k ref ∧ ref ≠ e.ref := by
  unfold named
  simp only [mem_removeEntry_iff hnodup]
  constructor
  · rintro ⟨x, ⟨hx, hne⟩, rfl, hrest⟩
    exact ⟨⟨x, hx, rfl, hrest⟩, hne⟩
  · rintro ⟨⟨x, hx, rfl, hrest⟩, hne⟩
    exact ⟨x, ⟨hx, hne⟩, rfl, hrest⟩

theorem getElem?_modify_cases {p : PeerEntry} {j : Nat} {g : PeerEntry → PeerEntry}
    (h : (peers.modify j g)[k]? = some p) :
    ∃ p0, peers[k]? = some p0 ∧ p = if j = k then g p0 else p0 := by
  rw [List.getElem?_modify, Option.map_eq_map, Option.map_eq_some_iff] at h
  obtain ⟨p0, hp0, rfl⟩ := h
  exact ⟨p0, hp0, by split <;> rfl⟩

/-- A change of a peer entry that keeps its reference and its receive state lawful. -/
theorem PeerLaw.modify (l : PeerLaw q peers) (j : Nat) {g : PeerEntry → PeerEntry}
    (hout : ∀ p, (g p).outstanding = p.outstanding) (hrx : ∀ p, p.RxLawful → (g p).RxLawful) :
    PeerLaw q (peers.modify j g) := by
  refine ⟨fun k p hp => ?_, fun k p hp ref => ?_, l.returns⟩ <;>
    obtain ⟨p0, hp0, rfl⟩ := getElem?_modify_cases hp
  · split
    · exact hrx p0 (l.rx k p0 hp0)
    · exact l.rx k p0 hp0
  · rw [← l.names k p0 hp0 ref]
    split
    · rw [hout]
    · rfl

/-- A queue that names the same references. -/
theorem PeerLaw.of_named (l : PeerLaw q peers) (h : ∀ k ref, named u k ref ↔ named q k ref)
    (hreturns : ∀ e ∈ u, e.state = .waiting → e.returnState = .waiting) : PeerLaw u peers :=
  ⟨l.rx, fun k p hp ref => (l.names k p hp ref).trans (h k ref).symm, hreturns⟩

/-- A change of one entry, a CAST or one that goes on waiting or not waiting. -/
theorem PeerLaw.update (l : PeerLaw q peers) (hnodup : (q.map (·.ref)).Nodup) (he : e ∈ q)
    (hf : ∀ x, (f x).ref = x.ref ∧ (f x).dest = x.dest)
    (hstate : e.isCast = false → ((f e).state ≠ .waiting ↔ e.state ≠ .waiting))
    (hreturn : (f e).state = .waiting → (f e).returnState = .waiting) : PeerLaw (updateEntry q e.ref f) peers := by
  refine l.of_named (fun k ref => ?_) fun x hx => ?_
  · rw [named_updateEntry hnodup he hf]
    constructor
    · rintro (⟨h, -⟩ | ⟨rfl, hdest, hdata, h⟩)
      · exact h
      · exact (named_of_entry hnodup he).2 ⟨hdest, hdata, (hstate hdata).1 h⟩
    · intro h
      by_cases href : ref = e.ref
      · subst href
        obtain ⟨hdest, hdata, h⟩ := (named_of_entry hnodup he).1 h
        exact .inr ⟨rfl, hdest, hdata, (hstate hdata).2 h⟩
      · exact .inl ⟨h, href⟩
  · rcases (mem_updateEntry_iff hnodup).1 hx with ⟨hold, -⟩ | ⟨y, hy, hyref, rfl⟩
    · exact l.returns x hold
    · rwa [eq_of_ref hnodup he hy hyref]

/-- An entry that is named no more gives up its peer's reference (R74). -/
theorem PeerLaw.drop (l : PeerLaw q peers) (hnodup : (q.map (·.ref)).Nodup) (he : e ∈ q)
    (hnamed : ∀ k ref, named u k ref ↔ named q k ref ∧ ref ≠ e.ref)
    (hreturns : ∀ e ∈ u, e.state = .waiting → e.returnState = .waiting) {g : PeerEntry → PeerEntry}
    (hout : ∀ p, (g p).outstanding = (p.clearOutstanding e.ref).outstanding) (hrx : ∀ p, p.RxLawful → (g p).RxLawful) :
    PeerLaw u (if e.isCast = true then peers else peers.modify e.dest g) := by
  have hother {k : Nat} (h : e.isCast = true ∨ e.dest ≠ k) (ref : Nat) : named u k ref ↔ named q k ref := by
    rw [hnamed, and_iff_left_of_imp]
    rintro hq rfl
    obtain ⟨hdest, hdata, -⟩ := (named_of_entry hnodup he).1 hq
    rcases h with h | h
    · exact absurd (hdata.symm.trans h) (by decide)
    · exact h hdest
  split
  · rename_i hcast
    exact l.of_named (fun k => hother (.inl hcast)) hreturns
  · refine ⟨fun k p hp => ?_, fun k p hp ref => ?_, hreturns⟩ <;>
      obtain ⟨p0, hp0, rfl⟩ := getElem?_modify_cases hp
    · split
      · exact hrx p0 (l.rx k p0 hp0)
      · exact l.rx k p0 hp0
    · split
      · rw [hnamed, ← l.names k p0 hp0 ref, hout, PeerEntry.clearOutstanding]
        by_cases h : p0.outstanding = some e.ref
        · rw [if_pos h, h]
          refine ⟨nofun, fun ⟨heq, hne⟩ => absurd (Option.some.inj heq).symm hne⟩
        · simp only [if_neg h]
          exact ⟨fun hp => ⟨hp, fun heq => h (heq ▸ hp)⟩, And.left⟩
      · rename_i hne
        rw [hother (.inr hne), l.names k p0 hp0 ref]

/-- An entry that leaves gives up its peer's reference (R74, R116). -/
theorem PeerLaw.remove (l : PeerLaw q peers) (hnodup : (q.map (·.ref)).Nodup) (he : e ∈ q) {g : PeerEntry → PeerEntry}
    (hout : ∀ p, (g p).outstanding = (p.clearOutstanding e.ref).outstanding) (hrx : ∀ p, p.RxLawful → (g p).RxLawful) :
    PeerLaw (removeEntry q e.ref) (if e.isCast = true then peers else peers.modify e.dest g) :=
  l.drop hnodup he (fun _ _ => named_removeEntry hnodup)
    (fun x hx => l.returns x ((removeEntry_sublist ..).mem hx)) hout hrx

end

/-! ## Every move keeps the law of the peer table -/

theorem PeerEntry.concluded_outstanding (p : PeerEntry) (ref : Nat) (o : TxOutcome) (refresh : Bool) :
    (p.concluded ref o refresh).outstanding = (p.clearOutstanding ref).outstanding := by
  unfold PeerEntry.concluded
  dsimp only
  split
  · rfl
  · split <;> rfl

theorem PeerEntry.RxLawful.concluded {p : PeerEntry} (h : p.RxLawful) (ref : Nat) (o : TxOutcome) (refresh : Bool) :
    (p.concluded ref o refresh).RxLawful := by
  unfold PeerEntry.concluded
  dsimp only
  split
  · exact h
  · split <;> exact h

section
variable {s : State} {e : TxEntry}

theorem State.peerLaw.concludedAs (p : s.peerLaw) (l : s.headLaw) {x : TxEntry} (he : e ∈ s.txq) (href : x.ref = e.ref)
    (hdest : x.dest = e.dest) (o : TxOutcome) (refresh : Bool) : (s.concludedAs x o refresh).peerLaw := by
  obtain ⟨lq, -⟩ := s.headLaw_iff.1 l
  have hcast : x.isCast = e.isCast := by simp [TxEntry.isCast, hdest]
  rw [State.peerLaw_iff, State.concludedAs, href, hdest, hcast]
  exact ((State.peerLaw_iff s).1 p).remove lq.nodup he (fun p => p.concluded_outstanding e.ref o refresh)
    fun _ h => h.concluded _ _ _

theorem State.peerLaw.conclude (p : s.peerLaw) (l : s.headLaw) (ref : Nat) (o : TxOutcome) (refresh : Bool) :
    (s.conclude ref o refresh).peerLaw := by
  cases h : findEntry s.txq ref with
  | none => rwa [State.conclude_missing h]
  | some e =>
    rw [State.conclude_concludedAs h]
    exact p.concludedAs l (findEntry_mem_queue h) rfl rfl _ _

theorem State.peerLaw.concludeCancelled (p : s.peerLaw) (l : s.headLaw) (e : TxEntry) :
    (s.concludeCancelled e).peerLaw := by
  unfold State.concludeCancelled
  split <;> exact p.conclude l ..

theorem State.peerLaw.update (p : s.peerLaw) (l : s.headLaw) {f : TxEntry → TxEntry} (he : e ∈ s.txq)
    (hf : ∀ x, (f x).ref = x.ref ∧ (f x).dest = x.dest)
    (hstate : e.isCast = false → ((f e).state ≠ .waiting ↔ e.state ≠ .waiting))
    (hreturn : (f e).state = .waiting → (f e).returnState = .waiting) :
    (s.setTxq (updateEntry s.txq e.ref f)).peerLaw :=
  (State.peerLaw_iff _).2
    (((State.peerLaw_iff s).1 p).update l.nodup he hf hstate hreturn)

theorem State.peerLaw.modifyPeer (p : s.peerLaw) (k : Nat) {g : PeerEntry → PeerEntry}
    (hout : ∀ p, (g p).outstanding = p.outstanding) (hrx : ∀ p, p.RxLawful → (g p).RxLawful) :
    (s.modifyPeer k g).peerLaw :=
  (State.peerLaw_iff _).2 (((State.peerLaw_iff s).1 p).modify k hout hrx)

/-- An entry that waits after a change and is to be named no more. -/
theorem State.peerLaw.waits (p : s.peerLaw) (l : s.headLaw) {f : TxEntry → TxEntry} (he : e ∈ s.txq)
    (hdata : e.isCast = false) (hf : ∀ x, (f x).ref = x.ref ∧ (f x).dest = x.dest) (hstate : (f e).state = .waiting)
    (hreturn : (f e).returnState = .waiting) :
    ((s.setTxq (updateEntry s.txq e.ref f)).modifyPeer e.dest fun p => p.clearOutstanding e.ref).peerLaw := by
  obtain ⟨lq, -⟩ := s.headLaw_iff.1 l
  have lp := (State.peerLaw_iff s).1 p
  have hdropped := lp.drop (u := updateEntry s.txq e.ref f) (g := fun p => p.clearOutstanding e.ref) lq.nodup he
    (fun k ref => by simp [named_updateEntry lq.nodup he hf, hstate])
    (fun x hx => by
      rcases (mem_updateEntry_iff lq.nodup).1 hx with ⟨hold, -⟩ | ⟨y, hy, hyref, rfl⟩
      · exact lp.returns x hold
      · rw [eq_of_ref lq.nodup he hy hyref]
        exact fun _ => hreturn)
    (fun _ => rfl) fun _ h => h
  rw [if_neg (by simp [hdata])] at hdropped
  exact (State.peerLaw_iff _).2 hdropped

/-- A DATA selected is the one entry that does not wait, and its peer names it (R68, R74). -/
theorem State.peerLaw.select (p : s.peerLaw) (l : s.headLaw) (h : Machine.offer s.txq = some e)
    (hdata : e.isCast = false) :
    ((s.setTxq (updateEntry s.txq e.ref TxEntry.select)).modifyPeer e.dest fun p => p.setOutstanding e.ref).peerLaw := by
  obtain ⟨lq, -⟩ := s.headLaw_iff.1 l
  obtain ⟨hhead, -⟩ := l.offer h
  have he := offer_mem h
  have lp := (State.peerLaw_iff s).1 p
  have honly {k ref : Nat} (hn : named s.txq k ref) : ref = e.ref := by
    obtain ⟨x, hx, rfl, -, -, hstate⟩ := hn
    have hxhead := lq.head hx hstate
    rw [hhead] at hxhead
    cases hxhead
    rfl
  have hnamed (k ref : Nat) :
      named (updateEntry s.txq e.ref TxEntry.select) k ref ↔ ref = e.ref ∧ e.dest = k := by
    rw [named_updateEntry (f := TxEntry.select) lq.nodup he fun _ => ⟨rfl, rfl⟩]
    constructor
    · rintro (⟨hn, hne⟩ | ⟨href, hdest, -⟩)
      · exact absurd (honly hn) hne
      · exact ⟨href, hdest⟩
    · exact fun ⟨href, hdest⟩ => .inr ⟨href, hdest, hdata, nofun⟩
  refine (State.peerLaw_iff _).2 ⟨fun k p hp => ?_, fun k p hp ref => ?_, fun x hx => ?_⟩
  · obtain ⟨p0, hp0, rfl⟩ := getElem?_modify_cases hp
    split <;> exact lp.rx k p0 hp0
  · obtain ⟨p0, hp0, rfl⟩ := getElem?_modify_cases hp
    refine Iff.trans ?_ (hnamed k ref).symm
    split
    · rename_i hdest
      simp [PeerEntry.setOutstanding, hdest, eq_comm]
    · rename_i hne
      rw [lp.names k p0 hp0 ref]
      refine ⟨fun hn => ?_, fun hboth => absurd hboth.2 hne⟩
      obtain rfl := honly hn
      exact absurd ((named_of_entry lq.nodup he).1 hn).1 hne
  · rcases (mem_updateEntry_iff lq.nodup).1 hx with ⟨hold, -⟩ | ⟨y, -, -, rfl⟩
    · exact lp.returns x hold
    · exact nofun

theorem State.peerLaw.refused (p : s.peerLaw) (l : s.headLaw) (h : Machine.offer s.txq = some e) :
    (s.notStarted e).peerLaw := by
  rw [(l.notStarted_eq h).2]
  by_cases hwaits : e.dest ≠ 31 ∧ e.state = .waiting
  · rw [if_pos hwaits]
    obtain ⟨hdest, hstate⟩ := hwaits
    exact p.waits l (f := TxEntry.keptState) (offer_mem h) ((TxEntry.isCast_false_iff e).2 hdest)
      (fun _ => ⟨rfl, rfl⟩) hstate hstate
  · rw [if_neg hwaits]
    exact p.update l (f := TxEntry.keptState) (offer_mem h) (fun _ => ⟨rfl, rfl⟩) (fun _ => Iff.rfl) id

theorem State.peerLaw.returnEntry (p : s.peerLaw) (l : s.headLaw) (ref : Nat) : (s.returnEntry ref).peerLaw := by
  rcases s.returnEntry_cases ref with heq | ⟨e, h, ⟨-, heq⟩ | ⟨-, heq⟩⟩ <;> rw [heq]
  · exact p
  · exact p.concludeCancelled l e
  · have he := findEntry_mem_queue h
    obtain rfl := findEntry_ref h
    by_cases hwaits : e.isCast = false ∧ e.returnState = .waiting
    · rw [if_pos hwaits]
      obtain ⟨hdata, hreturn⟩ := hwaits
      exact p.waits l (f := TxEntry.goesBack) he hdata (fun _ => ⟨rfl, rfl⟩) hreturn hreturn
    · rw [if_neg hwaits]
      refine p.update l (f := TxEntry.goesBack) he (fun _ => ⟨rfl, rfl⟩) (fun hdata => ?_) id
      have hreturn : e.returnState ≠ .waiting := fun hreturn => hwaits ⟨hdata, hreturn⟩
      exact ⟨fun _ hstate => hreturn (((State.peerLaw_iff s).1 p).returns e he hstate), fun _ => hreturn⟩

theorem State.peerLaw.result (p : s.peerLaw) (l : s.headLaw) (ref : Nat) (r : WatchResult) :
    (s.applyWatchResult ref r).peerLaw := by
  rcases s.applyWatchResult_cases ref r with
    ⟨heq, -⟩ | ⟨e, h, hflight, ⟨o, refresh, -, heq⟩ | ⟨refresh, -, heq⟩⟩ <;> rw [heq]
  · exact p
  · exact p.concludedAs l (findEntry_mem_queue h) (e.countResult_ref r) (e.countResult_dest r) o refresh
  · have hreturned := p.update l (findEntry_mem_queue h)
      (f := TxEntry.outstandingAt (e.countResult r).attempts (e.countResult r).busyAnswers) (fun _ => ⟨rfl, rfl⟩)
      (fun _ => by simp [TxEntry.outstandingAt, hflight]) nofun
    cases refresh with
    | true => exact hreturned.modifyPeer e.dest (g := refreshed) (fun _ => rfl) fun _ h => h
    | false => exact hreturned

theorem State.peerLaw.cancelEntry (p : s.peerLaw) (l : s.headLaw) (h : findEntry s.txq e.ref = some e) :
    (s.cancelEntry e).peerLaw := by
  unfold State.cancelEntry
  split
  · rename_i hflight
    exact p.update l (f := TxEntry.defer) (findEntry_mem_queue h) (fun _ => ⟨rfl, rfl⟩) (fun _ => Iff.rfl)
      fun hwaiting => absurd (hflight.symm.trans hwaiting) (by decide)
  · exact p.concludeCancelled l e

/-- The reset values of the queue and the peer table obey the law (R67, R128). -/
theorem State.peerLaw.reset {t : State} (hq : t.txq = []) (hp : t.peers = List.replicate 31 PeerEntry.init) :
    t.peerLaw := by
  have hinit {k : Nat} {p : PeerEntry} (h : (List.replicate 31 PeerEntry.init)[k]? = some p) : p = PeerEntry.init :=
    List.eq_of_mem_replicate (List.mem_of_getElem? h)
  rw [State.peerLaw_iff, hq, hp]
  refine ⟨fun k p h => ?_, fun k p h ref => ?_, nofun⟩ <;> rw [hinit h]
  · exact fun _ => rfl
  · simp [named, PeerEntry.init]

end

theorem Move.peerLaw {c : Instr} {s t : State} (m : Move c s t) (l : s.headLaw) (p : s.peerLaw) : t.peerLaw := by
  cases m with
  | side h => rw [h]; exact p
  | rotate r _ => exact p
  | watch w _ => exact p
  | selectCast e h hcast =>
    exact p.update l (offer_mem h) (fun _ => ⟨rfl, rfl⟩) (fun hdata => absurd (hdata.symm.trans hcast) (by decide)) nofun
  | selectData e q h hdata => exact p.select l h hdata
  | refused e h => exact p.refused l h
  | counted ref =>
    cases h : findEntry s.txq ref with
    | none => rwa [updateEntry_missing h]
    | some e =>
      obtain rfl := findEntry_ref h
      have he := findEntry_mem_queue h
      exact p.update l he (fun _ => ⟨rfl, rfl⟩) (fun _ => Iff.rfl) (((State.peerLaw_iff s).1 p).returns e he)
  | sent ref => exact p.conclude l ..
  | returned ref => exact p.returnEntry l ref
  | result w r _ => exact State.peerLaw.result (s := s.setWatch .shut) p (l.watch nofun) w.entry r
  | cancel tag =>
    unfold State.cancelTag
    split
    · exact p
    · rename_i e h
      exact p.cancelEntry l (l.findTag h)
  | flush =>
    obtain ⟨-, hp⟩ := State.cancelAll_keeps (P := fun u => u.headLaw ∧ u.peerLaw)
      (fun u e h ⟨l, p⟩ => ⟨l.cancelEntry h, p.cancelEntry l h⟩) s.txq [] rfl l.nodup ⟨l, p⟩
    exact hp
  | post dt dest tag len payload _ _ =>
    have lp := (State.peerLaw_iff s).1 p
    refine (State.peerLaw_iff _).2 (lp.of_named (fun k ref => ?_) fun e he => ?_)
    · simp only [named, State.appendEntry, State.takeRef, State.setNextRef_txq, State.setTxq_txq, List.mem_append,
        List.mem_singleton]
      constructor
      · rintro ⟨e, he | rfl, href, hdest, hdata, hstate⟩
        · exact ⟨e, he, href, hdest, hdata, hstate⟩
        · exact absurd rfl hstate
      · exact fun ⟨e, he, hrest⟩ => ⟨e, .inl he, hrest⟩
    · rcases List.mem_append.1 he with hold | hnew
      · exact lp.returns e hold
      · rw [List.mem_singleton.1 hnew]
        exact id
  | record a b f k _ _ => exact p
  | accept a b k seq fresh _ => exact p.modifyPeer k (fun _ => rfl) nofun
  | castLost a b _ => exact p
  | take dt _ =>
    unfold State.removeHeadRecord
    split <;> exact p
  | reap dt _ => exact p
  | pinReset dt _ => exact .reset rfl rfl
  | release dt a b r low _ => exact .reset rfl rfl
  | restart dt _ => exact .reset rfl rfl

/-- Settles O54: every step is a run of moves; each keeps the law of selection, and under it the law of the peer table. -/
theorem everyStepKeepsTheHeadLaw : Obligations.EveryStepKeepsTheHeadLaw := by
  refine ⟨fun s t l e => ?_, fun s t l p e => ?_⟩
  · have lt : t.headLaw := step_keeps (fun _ _ _ m => m.headLaw) l e
    exact ⟨lt, lt.one_not_waiting⟩
  · obtain ⟨-, pt⟩ := step_keeps (P := fun u => u.headLaw ∧ u.peerLaw)
      (fun _ _ _ m ⟨l, p⟩ => ⟨m.headLaw l, m.peerLaw l p⟩) ⟨l, p⟩ e
    exact pt

end Sys2Proof.Machine
end

section
/-! The close of a POST: the five checks, the blocks that a claim takes, and the payload they hold. -/

namespace Sys2Proof.Machine

open Sys2Proof

/-! ## The blocks of a claim (R129, R130) -/

section
variable (p : Pool) {n : Nat}

theorem Pool.freeBlocks_nodup : p.freeBlocks.Nodup := List.nodup_range.filter _

theorem Pool.grant_length (h : n ≤ p.freeCount) : (p.grant n).length = n := by
  rw [Pool.grant, List.length_take]
  exact Nat.min_eq_left h

/-- The blocks granted are FREE no more, and the others are as they were. -/
theorem Pool.claim_freeBlocks (n : Nat) {h : Holder} (hh : h ≠ .free) (payload : List Byte) :
    (p.claim (p.grant n) h payload).freeBlocks = p.freeBlocks.drop n := by
  have hholder (b : Nat) : ((p.claim (p.grant n) h payload).holders.getD b (.transmit 0) = .free) ↔
      p.holders.getD b (.transmit 0) = .free ∧ b ∉ p.grant n := by
    simp only [Pool.claim, List.getD_eq_getElem?_getD, List.getElem?_mapIdx]
    cases p.holders[b]? with
    | none => simp
    | some old =>
      by_cases hb : b ∈ p.grant n <;> simp [hb, hh]
  have hfilter : (p.claim (p.grant n) h payload).freeBlocks = p.freeBlocks.filter fun b => b ∉ p.grant n := by
    simp only [Pool.freeBlocks, List.filter_filter, hholder, Bool.decide_and, Bool.and_comm]
  have hsplit : p.freeBlocks = p.grant n ++ p.freeBlocks.drop n := (List.take_append_drop n _).symm
  have hnodup := p.freeBlocks_nodup
  rw [hsplit, List.nodup_append] at hnodup
  obtain ⟨-, -, hapart⟩ := hnodup
  rw [hfilter]
  conv_lhs => rw [hsplit]
  rw [List.filter_append, List.filter_eq_nil_iff.2 (by simp), List.nil_append, List.filter_eq_self]
  intro b hb
  simpa using fun hgranted => hapart b hgranted b hb rfl

/-- A claim that is granted in full takes so many blocks from the free count. -/
theorem Pool.claim_freeCount (hn : n ≤ p.freeCount) {h : Holder} (hh : h ≠ .free) (payload : List Byte) :
    (p.claim (p.grant n) h payload).freeCount + n = p.freeCount := by
  unfold Pool.freeCount at *
  rw [Pool.claim_freeBlocks p n hh, List.length_drop]
  omega

end

/-! ## The payload that blocks hold (R130) -/

theorem payloadAddress_head (b : Nat) (rest : List Nat) {k : Nat} (hk : k < 16) :
    payloadAddress (b :: rest) k = 16 * b + k := by
  simp [payloadAddress, Config.blockBytes, Nat.div_eq_of_lt hk, Nat.mod_eq_of_lt hk]

theorem payloadAddress_tail (b : Nat) (rest : List Nat) (k : Nat) :
    payloadAddress (b :: rest) (k + 16) = payloadAddress rest k := by
  simp [payloadAddress, Config.blockBytes]

/-- Byte `k` of a payload is read from the blocks it was filled into. -/
theorem payloadByte_fillBlocks {blocks : List Nat} (hnodup : blocks.Nodup) {m : List Host.Cell} (hwf : cellsWf m)
    {payload : List Byte} {k : Nat} (hk : k < 16 * blocks.length) (hp : k < payload.length) :
    payloadByte (fillBlocks m blocks payload) blocks k = payload.getD k 0 := by
  induction blocks generalizing m payload k with
  | nil => simp at hk
  | cons b rest ih =>
    obtain ⟨hb, hrest⟩ := List.nodup_cons.1 hnodup
    rw [payloadByte, fillBlocks]
    by_cases hfirst : k < 16
    · have hlen : k < (payload.take Config.blockBytes).length := by
        rw [List.length_take]
        exact Nat.lt_min.2 ⟨hfirst, hp⟩
      rw [payloadAddress_head b rest hfirst, readCell_fillBlocks_outside _ _ (by rwa [show (16 * b + k) / 16 = b by omega]),
        readCell_writeCells _ _ _ hwf, if_pos ⟨Nat.le_add_right .., Nat.add_lt_add_left hlen _⟩,
        show 16 * b + k - Config.blockBytes * b = k from Nat.add_sub_cancel_left ..]
      simp [List.getD_eq_getElem?_getD, Config.blockBytes, hfirst]
    · obtain ⟨j, rfl⟩ : ∃ j, k = j + 16 := ⟨k - 16, by omega⟩
      rw [payloadAddress_tail]
      refine (ih hrest (writeCells_wf _ _ hwf) (k := j) ?_ ?_).trans ?_
      · simp only [List.length_cons] at hk
        omega
      · simp only [List.length_drop, Config.blockBytes]
        omega
      · simp [List.getD_eq_getElem?_getD, List.getElem?_drop, Config.blockBytes, Nat.add_comm]

/-! ## The five checks (R104, R158) -/

theorem validLength_iff (len : Nat) : validLength len = true ↔ 1 ≤ len ∧ len ≤ 120 := decide_eq_true_iff

section
variable {s : State} {dest len : Nat}

theorem State.postComplete_iff (s : State) :
    s.postComplete = true ↔ s.port.params.length = 3 ∧
      (1 ≤ s.port.postLength → s.port.postLength ≤ 120 → 4 + s.port.postLength ≤ s.port.returned.length) := by
  by_cases hvalid : validLength s.port.postLength = true
  · have hbounds := (validLength_iff _).1 hvalid
    simp only [State.postComplete, hvalid, hbounds, Bool.not_true, Bool.false_or, Bool.and_eq_true, beq_iff_eq,
      decide_eq_true_eq, forall_true_left]
    rfl
  · have hbounds : 1 ≤ s.port.postLength → s.port.postLength ≤ 120 → False := fun h1 h2 =>
      hvalid ((validLength_iff _).2 ⟨h1, h2⟩)
    simp only [Bool.not_eq_true] at hvalid
    simp only [State.postComplete, hvalid, Bool.not_false, Bool.true_or, Bool.and_true, beq_iff_eq]
    exact ⟨fun h => ⟨h, fun h1 h2 => (hbounds h1 h2).elim⟩, And.left⟩

/-- Check 3: the destination and the length. -/
theorem State.judgePost_invalid
    (h : dest = s.straps.own ∨ dest ≠ 31 ∧ s.straps.highest < dest ∨ len = 0 ∨ 120 < len) :
    s.judgePost dest len = .invalid := by
  have hlength : validLength len = false ↔ len = 0 ∨ 120 < len := by
    rw [← Bool.not_eq_true, validLength_iff]
    omega
  refine if_pos ?_
  rwa [hlength]

/-- Checks 4 and 5: a place of the budget, and blocks beyond the reserve. -/
theorem State.judgePost_valid (hown : dest ≠ s.straps.own) (hdest : dest = 31 ∨ dest ≤ s.straps.highest) (h1 : 1 ≤ len)
    (h120 : len ≤ 120) :
    s.judgePost dest len =
      if 16 ≤ s.txq.length + s.compq.length then .full
      else if s.pool.freeCount < (len + 15) / 16 + 8 then .noRoom
      else .ok := by
  refine if_neg ?_
  rintro (h | ⟨hcast, hhigh⟩ | h)
  · exact hown h
  · rcases hdest with hdest | hdest
    · exact hcast hdest
    · exact absurd hhigh (Nat.not_lt.2 hdest)
  · rw [(validLength_iff len).2 ⟨h1, h120⟩] at h
    cases h

/-- A POST that its checks refuse has no effect. -/
theorem State.presentPost_refused {r : Result} (hr : r ≠ .ok)
    (h : s.judgePost (s.port.params.getD 0 0).toNat s.port.postLength = r) : s.presentPost = (s, r) := by
  unfold State.presentPost
  dsimp only
  split
  · rename_i hok
    exact absurd (h.symm.trans hok) hr
  · rw [h]

/-- A POST that passes its checks is appended. -/
theorem State.presentPost_accepted
    (h : s.judgePost (s.port.params.getD 0 0).toNat s.port.postLength = .ok) :
    s.presentPost = (s.appendEntry (s.port.params.getD 0 0).toNat (s.port.params.getD 1 0) s.port.postLength
      s.port.staging, .ok) := by
  simp only [State.presentPost, h]

end

theorem exec_post_close {s : State} (dt : Nat) (hopen : s.port.state = .opened)
    (hcommand : s.port.command = some .post) :
    exec (.post dt .close) s = .next ((s.advance dt).closeCommand s.postComplete State.presentPost) :=
  congrArg Host.Outcome.next (State.hostStep_close (s := s.advance dt) hopen hcommand _)

/-- What an appended entry's blocks hold: their bytes are the payload's, and every other byte is as it was. -/
theorem Pool.claim_payload (p : Pool) {len : Nat} (hroom : (len + 15) / 16 ≤ p.freeCount) (h : Holder)
    {payload : List Byte} (hwf : cellsWf p.cells) (hlen : payload.length = len) {k : Nat} (hk : k < len) :
    payloadByte (p.claim (p.grant ((len + 15) / 16)) h payload).cells (p.grant ((len + 15) / 16)) k =
      payload.getD k 0 := by
  refine payloadByte_fillBlocks (p.freeBlocks_nodup.sublist (List.take_sublist ..)) hwf ?_ (hlen ▸ hk)
  have hgranted := Pool.grant_length p hroom
  rw [Pool.grant] at hgranted
  omega

/-- Settles O41: the close runs the checks of `State.judgePost`, and an entry accepted takes the blocks granted. -/
theorem postIsJudgedAtItsClose : Obligations.PostIsJudgedAtItsClose := by
  rintro dt s u dest len complete hopen hcommand rfl rfl rfl hcomplete
  replace hcomplete := hcomplete.trans (State.postComplete_iff s).symm
  have hexec := exec_post_close dt hopen hcommand
  refine ⟨fun hfault => ?_, fun hs hlacks => ?_, fun hs hwhole => ?_⟩
  · rw [hexec, State.closeCommand_refused (s := s.advance dt) hfault]
  · rw [hexec, State.closeCommand_incomplete (s := s.advance dt) hs (Bool.eq_false_iff.2 fun h => hlacks (hcomplete.2 h))]
  · have hacts {t : State} {r : Result} (h : (s.advance dt).presentPost = (t, r)) :
        exec (.post dt .close) s = .next (t.closedWith r) := by
      rw [hexec, State.closeCommand_acts (s := s.advance dt) hs (hcomplete.1 hwhole) h]
    refine ⟨fun hinvalid => ?_, fun hown hdest h1 h120 => ?_⟩
    · exact hacts (State.presentPost_refused (s := s.advance dt) nofun (State.judgePost_invalid hinvalid))
    · have hjudge := State.judgePost_valid (s := s.advance dt) hown hdest h1 h120
      refine ⟨fun hfull => ?_, fun hplace hshort => ?_, fun hplace hroom => ?_⟩
      · exact hacts (State.presentPost_refused nofun (hjudge.trans (if_pos hfull)))
      · exact hacts (State.presentPost_refused nofun
          (hjudge.trans ((if_neg (Nat.not_le.2 hplace)).trans (if_pos hshort))))
      · have hok := hjudge.trans ((if_neg (Nat.not_le.2 hplace)).trans (if_neg (Nat.not_lt.2 hroom)))
        have hn := Nat.le_of_add_right_le hroom
        exact ⟨_, _, hacts (State.presentPost_accepted hok), rfl, rfl,
          Pool.claim_freeCount s.pool hn (h := .transmit s.nextRef) nofun _,
          fun a ha => readCell_fillBlocks_outside _ _ ha,
          fun hwf hlen k hk => Pool.claim_payload _ hn _ hwf hlen hk⟩

end Sys2Proof.Machine
end

section
/-! What the commands do to the send states of the peer table and to the queues beside them: the conclusion and the watch
result as functions of what they read, and a character delivered as the queues see it. -/

namespace Sys2Proof.Machine

open Sys2Proof

/-! ## The send view (R69 to R72) -/

/-- The send state of a peer entry: tx_seq and refresh_due. -/
def PeerEntry.send (p : PeerEntry) : Seq × Bool := (p.txSeq, p.refreshDue)

/-- What the rules of the send state read and move: the transmit and completion queues and the send states. -/
structure SendView where
  txq : List TxEntry
  compq : List CompletionRecord
  sends : List (Seq × Bool)

def State.sendView (s : State) : SendView := { txq := s.txq, compq := s.compq, sends := s.peers.map PeerEntry.send }

/-- A refresh of a send state (R70). -/
def sendRefreshed (x : Seq × Bool) : Seq × Bool := (x.1 + 1, true)

/-- The send state after the conclusion of a DATA to the peer (R69, R70, R72). -/
def sendConcluded (o : TxOutcome) (refresh : Bool) (x : Seq × Bool) : Seq × Bool :=
  if o = .delivered then (x.1 + 1, false) else if refresh = true then sendRefreshed x else x

/-- An entry concluded, as the send view has it (R116). -/
def SendView.concluded (v : SendView) (e : TxEntry) (o : TxOutcome) (refresh : Bool) : SendView :=
  { txq := removeEntry v.txq e.ref
    compq := v.compq ++ [e.record o]
    sends := if e.isCast = true then v.sends else v.sends.modify e.dest (sendConcluded o refresh) }

/-- A watch result, as the send view has it (R114). -/
def SendView.result (v : SendView) (ref : Nat) (r : WatchResult) : SendView :=
  match findEntry v.txq ref with
  | none => v
  | some e =>
    if e.state = .inFlight then
      match (e.countResult r).resultEffect r with
      | .conclude o refresh => v.concluded (e.countResult r) o refresh
      | .outstanding refresh =>
        { txq := updateEntry v.txq ref
            (TxEntry.outstandingAt (e.countResult r).attempts (e.countResult r).busyAnswers)
          compq := v.compq
          sends := if refresh = true then v.sends.modify e.dest sendRefreshed else v.sends }
    else v

section
variable {v : SendView} {ref : Nat} {r : WatchResult} {e : TxEntry}

theorem SendView.result_idle (h : ∀ e, findEntry v.txq ref = some e → e.state ≠ .inFlight) : v.result ref r = v := by
  unfold SendView.result
  split
  · rfl
  · rename_i e he
    exact if_neg (h e he)

theorem SendView.result_inFlight (h : findEntry v.txq ref = some e) (hflight : e.state = .inFlight) :
    v.result ref r = match (e.countResult r).resultEffect r with
      | .conclude o refresh => v.concluded (e.countResult r) o refresh
      | .outstanding refresh =>
        { txq := updateEntry v.txq ref
            (TxEntry.outstandingAt (e.countResult r).attempts (e.countResult r).busyAnswers)
          compq := v.compq
          sends := if refresh = true then v.sends.modify e.dest sendRefreshed else v.sends } := by
  simp only [SendView.result, h, if_pos hflight]

end

/-- A change of one place of a list, seen through a function. -/
theorem map_modify_of {α β : Type} {f : α → α} {g : α → β} {f' : β → β} (h : ∀ x, g (f x) = f' (g x)) (l : List α)
    (i : Nat) : (l.modify i f).map g = (l.map g).modify i f' := by
  refine List.ext_getElem? fun k => ?_
  simp only [List.getElem?_map, List.getElem?_modify, Option.map_eq_map]
  cases l[k]? with
  | none => rfl
  | some x =>
    by_cases hk : i = k
    · simp [hk, h]
    · simp [hk]

theorem PeerEntry.concluded_send (p : PeerEntry) (ref : Nat) (o : TxOutcome) (refresh : Bool) :
    (p.concluded ref o refresh).send = sendConcluded o refresh p.send := by
  unfold PeerEntry.concluded sendConcluded
  dsimp only
  split
  · rfl
  · split <;> rfl

section
variable (s : State)

theorem State.concludedAs_sendView (e : TxEntry) (o : TxOutcome) (refresh : Bool) :
    (s.concludedAs e o refresh).sendView = s.sendView.concluded e o refresh := by
  have hsends := map_modify_of (fun p => PeerEntry.concluded_send p e.ref o refresh) s.peers e.dest
  cases hc : e.isCast with
  | true => simp only [State.sendView, State.concludedAs, SendView.concluded, hc, if_true]
  | false => simp only [State.sendView, State.concludedAs, SendView.concluded, hc, Bool.false_eq_true, if_false, hsends]

/-- What a watch result does to the send view depends on the send view alone. -/
theorem State.applyWatchResult_sendView (ref : Nat) (r : WatchResult) :
    (s.applyWatchResult ref r).sendView = s.sendView.result ref r := by
  rcases s.applyWatchResult_cases ref r with
    ⟨heq, hidle⟩ | ⟨e, h, hflight, ⟨o, refresh, heffect, heq⟩ | ⟨refresh, heffect, heq⟩⟩ <;> rw [heq]
  · exact (SendView.result_idle hidle).symm
  · rw [State.concludedAs_sendView, SendView.result_inFlight (v := s.sendView) h hflight, heffect]
  · have hsends := map_modify_of (f := refreshed) (f' := sendRefreshed) (g := PeerEntry.send) (fun _ => rfl) s.peers e.dest
    obtain rfl := findEntry_ref h
    rw [SendView.result_inFlight (v := s.sendView) h hflight, heffect]
    cases refresh with
    | true => simp only [State.sendView, if_true, hsends]; rfl
    | false => rfl

end

/-! ## The watch closed with no answer (R95, R96) -/

section
variable {s t : State}

theorem State.closeWatch_sendView (s : State) (w : Watched) (r : WatchResult) :
    (s.closeWatch w r).sendView = s.sendView.result w.entry r := by
  rw [State.closeWatch, State.applyWatchResult_sendView]
  rfl

/-- The queues are as they were, or some entry's attempt has ended with no answer (R102). -/
def State.MayFail (s t : State) : Prop :=
  t.sendView = s.sendView ∨ ∃ ref, t.sendView = s.sendView.result ref .noAnswer

/-- The same at a block after which the watch is as it was, or SHUT because it has closed. -/
def State.MayShut (s t : State) : Prop :=
  t.sendView = s.sendView ∧ t.watch = s.watch ∨
    t.watch = .shut ∧ ∃ ref, t.sendView = s.sendView.result ref .noAnswer

theorem State.MayShut.mayFail (h : s.MayShut t) : s.MayFail t := by
  rcases h with ⟨h, -⟩ | ⟨-, h⟩
  · exact .inl h
  · exact .inr h

theorem State.watchDamage_mayShut (s : State) (start : Nat) : s.MayShut (s.watchDamage start) := by
  by_cases h : watchTakes s.watch start
  · obtain ⟨w, hw⟩ := watchTakes_watched h
    rw [State.watchDamage_takes hw h]
    exact .inr ⟨by rw [State.closeWatch_frame], w.entry, State.closeWatch_sendView ..⟩
  · rw [State.watchDamage_notTakes h]
    exact .inl ⟨rfl, rfl⟩

theorem State.damageNotice_mayShut (s : State) (start : Nat) : s.MayShut (s.damageNotice start) :=
  State.watchDamage_mayShut (s.setRot (s.rot.onDamage s.now)) start

theorem State.damageNotice_rxq (s : State) (start : Nat) : (s.damageNotice start).rxq = s.rxq := by
  rw [State.damageNotice, (State.watchDamage_mayClose ..).frame]
  rfl

theorem State.watchPassed_mayShut (s : State) (start : Nat) : s.MayShut (s.watchPassed start) := by
  by_cases h : watchWaited s.watch start s.now
  · have hwatched : ∃ w, s.watch.watched = some w := by
      obtain ⟨x, e, hopen, -⟩ := h
      exact ⟨x, by rw [hopen]; rfl⟩
    obtain ⟨w, hw⟩ := hwatched
    rw [State.watchPassed_waited hw h]
    exact .inr ⟨by rw [State.closeWatch_frame], w.entry, State.closeWatch_sendView ..⟩
  · rw [State.watchPassed_notWaited h]
    exact .inl ⟨rfl, rfl⟩

theorem State.endWaits_mayShut (s : State) (rotationFirst : Bool) (start : Nat) :
    s.MayShut (s.endWaits rotationFirst start) := by
  unfold State.endWaits
  split
  · rw [State.glitchWindow_eq]
    exact State.watchPassed_mayShut (s.setRot (windowPassed s.rot start s.now)) start
  · rw [State.glitchWindow_eq]
    exact State.watchPassed_mayShut s start

theorem State.endWaits_shut (h : s.watch = .shut) (rotationFirst : Bool) (start : Nat) :
    (s.endWaits rotationFirst start).sendView = s.sendView := by
  have hnot : ¬ watchWaited s.watch start s.now := by
    rintro ⟨x, e, hopen, -⟩
    rw [h] at hopen
    cases hopen
  rw [State.endWaits_notWaited rotationFirst hnot]
  rfl

/-- A glitch closes the watch once: by the truncation of its frame, or because the watch waited for it. -/
theorem State.glitch_mayFail (s : State) (rotationFirst : Bool) : s.MayFail (s.glitch rotationFirst) := by
  have hsplit : s.glitch rotationFirst =
      (s.setRx (s.rx.release .hunting)).glitchTruncation.endWaits rotationFirst s.rx.startInstant := rfl
  have htruncation : s.MayShut (s.setRx (s.rx.release .hunting)).glitchTruncation := by
    unfold State.glitchTruncation
    split
    · exact State.damageNotice_mayShut ((s.setRx (s.rx.release .hunting)).setAsm s.asm.damaged) s.asm.startInstant
    · exact .inl ⟨rfl, rfl⟩
  rw [hsplit]
  rcases htruncation with ⟨hsame, -⟩ | ⟨hshut, ref, hresult⟩
  · rcases (State.endWaits_mayShut _ rotationFirst s.rx.startInstant).mayFail with h | ⟨ref, h⟩
    · exact .inl (h.trans hsame)
    · exact .inr ⟨ref, by rw [h, hsame]⟩
  · exact .inr ⟨ref, by rw [State.endWaits_shut hshut, hresult]⟩

end

/-! ## The end of a good frame (R30, R96) -/

section
variable {s : State} {f : Frame}

theorem State.answerDue_sendView (s : State) (f : Frame) (code : AnswerCode) :
    (s.answerDue f code).sendView = s.sendView := by
  rw [State.answerDue_eq]
  rfl

/-- An acceptance moves the receive state of the peer alone (R80). -/
theorem State.takeOrBusy_sendView (s : State) (f : Frame) (linkNew : Bool) :
    (s.takeOrBusy f linkNew).sendView = s.sendView := by
  unfold State.takeOrBusy
  split
  · have hsends := map_modify_of (f := fun p => PeerEntry.accept p f.seq f.fresh) (f' := id) (g := PeerEntry.send)
      (fun _ => rfl) s.peers f.sender
    rw [State.acceptData, State.answerDue_sendView]
    exact congrArg (SendView.mk s.txq s.compq) (hsends.trans (List.modify_id ..))
  · exact s.answerDue_sendView ..

/-- The offer leaves the send view, the watch and the straps. -/
theorem State.offerFrame_sendView (s : State) (f : Frame) : (s.offerFrame f).sendView = s.sendView := by
  unfold State.offerFrame
  split
  · rfl
  · split
    · split
      · unfold State.decideAnswer
        split
        · split
          · exact s.answerDue_sendView ..
          · exact s.answerDue_sendView ..
          · exact s.takeOrBusy_sendView ..
          · exact s.takeOrBusy_sendView ..
        · rfl
      · rfl
    · unfold State.receiveCast
      split <;> rfl
    · rfl

theorem State.offerFrame_watch (s : State) (f : Frame) : (s.offerFrame f).watch = s.watch := by
  rw [State.offerFrame_frame]

theorem State.offerFrame_straps (s : State) (f : Frame) : (s.offerFrame f).straps = s.straps := by
  rw [State.offerFrame_frame]

theorem State.watchFrameEnd_straps (s : State) (f : Frame) : (s.watchFrameEnd f).straps = s.straps := by
  rw [(State.watchFrameEnd_mayClose s f).frame]

theorem State.watchFrameEnd_rxq (s : State) (f : Frame) : (s.watchFrameEnd f).rxq = s.rxq := by
  rw [(State.watchFrameEnd_mayClose s f).frame]

/-- A held frame closes its watch with the frame's result, at whatever place among the blocks that act on it. -/
theorem State.watchFrameEnd_sendView {u : State} {w : Watched} {em : Nat} {h : HeldFrame}
    (hview : u.sendView = s.sendView) (hwatch : u.watch = .holding w em h) (hstraps : u.straps = s.straps)
    (hstart : h.start = f.start) :
    (u.watchFrameEnd f).sendView = s.sendView.result w.entry (heldResult s.straps.own w h f) := by
  have hcloses : u.watchFrameEnd f = u.closeWatch w (heldResult u.straps.own w h f) := by
    rw [State.watchFrameEnd, hwatch]
    exact if_pos hstart.symm
  rw [hcloses, State.closeWatch_sendView, hview, hstraps]

theorem State.goodFrame_sendView_held (o : EndOrder) {w : Watched} {em : Nat} {h : HeldFrame}
    (hwatch : s.watch = .holding w em h) (hstart : h.start = f.start) :
    (s.goodFrame o f).sendView = s.sendView.result w.entry (heldResult s.straps.own w h f) := by
  have hoffered : (s.offerFrame f).watch = .holding w em h := by rw [State.offerFrame_watch, hwatch]
  have hboth : ((s.rotateFrame f).offerFrame f).watch = .holding w em h := by
    rw [State.offerFrame_watch]
    exact hwatch
  have hview : ((s.rotateFrame f).offerFrame f).sendView = s.sendView := State.offerFrame_sendView ..
  obtain ⟨rotationFirst, offerFirst⟩ := o
  cases rotationFirst <;> cases offerFirst <;> simp only [State.goodFrame, if_true, Bool.false_eq_true, if_false]
  · rw [State.offerFrame_sendView]
    exact State.watchFrameEnd_sendView rfl hwatch rfl hstart
  · exact State.watchFrameEnd_sendView (s.offerFrame_sendView f) hoffered (s.offerFrame_straps f) hstart
  · rw [State.offerFrame_sendView]
    exact State.watchFrameEnd_sendView (u := s.rotateFrame f) rfl hwatch rfl hstart
  · exact State.watchFrameEnd_sendView hview hboth (State.offerFrame_straps ..) hstart

theorem State.goodFrame_sendView_notHeld (o : EndOrder) (h : ¬ holdsFrame s.watch f) :
    (s.goodFrame o f).sendView = s.sendView := by
  have hkeeps : (s.goodFrame o f).watch = s.watch ∧ (s.goodFrame o f).sendView = s.sendView := by
    refine State.goodFrame_keeps (P := fun u => u.watch = s.watch ∧ u.sendView = s.sendView) (fun u hu => hu)
      (fun u ⟨hwatch, hview⟩ => ⟨(u.offerFrame_watch f).trans hwatch, (u.offerFrame_sendView f).trans hview⟩)
      (fun u ⟨hwatch, hview⟩ => ?_) o ⟨rfl, rfl⟩
    rw [State.watchFrameEnd_notHeld (by rwa [hwatch])]
    exact ⟨hwatch, hview⟩
  exact hkeeps.2

/-! ## The record of a good frame (R88, R141, R143) -/

/-- The record made from the frame `f` and appended to the receive queue, the tally taken with it (R140, R145). -/
def recordedFrom (s t : State) (f : Frame) : Prop :=
  f.own = false ∧ f.sameNumber = false ∧ (f.kind = .cast ∨ f.kind = .data ∧ f.dest = s.straps.own) ∧
    ∃ r : ReceiveRecord, r.source = f.sender ∧ r.length = f.length ∧ (r.cls = .cast ↔ f.kind = .cast) ∧
      t.rxq = { records := s.rxq.records ++ [r], tally := 0 }

theorem State.answerDue_rxq (s : State) (f : Frame) (code : AnswerCode) : (s.answerDue f code).rxq = s.rxq := by
  rw [State.answerDue_eq]

/-- An asking DATA makes a record where there is room, and none otherwise (R86). -/
theorem State.takeOrBusy_records (s : State) (f : Frame) (linkNew : Bool) :
    (s.takeOrBusy f linkNew).rxq = s.rxq ∨
      ∃ r : ReceiveRecord, r.source = f.sender ∧ r.length = f.length ∧ r.cls ≠ .cast ∧
        (s.takeOrBusy f linkNew).rxq = { records := s.rxq.records ++ [r], tally := 0 } := by
  unfold State.takeOrBusy
  split
  · refine .inr ⟨_, rfl, rfl, ?_, State.answerDue_rxq ..⟩
    exact nofun
  · exact .inl (State.answerDue_rxq ..)

/-- The offer of a frame leaves the records, or appends one for a CAST of another station or a DATA to this one. -/
theorem State.offerFrame_records (s : State) (f : Frame) :
    (s.offerFrame f).rxq.records = s.rxq.records ∨ recordedFrom s (s.offerFrame f) f := by
  by_cases hoffer : f.own = true ∨ f.sameNumber = true
  · rw [State.offerFrame_ownOrSame hoffer]
    exact .inl rfl
  · simp only [not_or, Bool.not_eq_true] at hoffer
    obtain ⟨ho, hs⟩ := hoffer
    cases hk : f.kind with
    | answer =>
      refine .inl ?_
      simp [State.offerFrame, ho, hs, hk]
    | cast =>
      rw [State.offerFrame_cast hk ho hs]
      unfold State.receiveCast
      split
      · exact .inr ⟨ho, hs, .inl hk, _, rfl, rfl, iff_of_true rfl hk, rfl⟩
      · exact .inl rfl
    | data =>
      by_cases hdest : f.dest = s.straps.own
      · have hasks (linkNew : Bool) : (s.takeOrBusy f linkNew).rxq.records = s.rxq.records ∨
            recordedFrom s (s.takeOrBusy f linkNew) f := by
          rcases s.takeOrBusy_records f linkNew with h | ⟨r, hsource, hlength, hcls, h⟩
          · exact .inl (congrArg _ h)
          · exact .inr ⟨ho, hs, .inr ⟨hk, hdest⟩, r, hsource, hlength, iff_of_false hcls (by simp [hk]), h⟩
        rw [State.offerFrame_data hk ho hs hdest]
        unfold State.decideAnswer
        split
        · split
          · exact .inl (congrArg _ (State.answerDue_rxq ..))
          · exact .inl (congrArg _ (State.answerDue_rxq ..))
          · exact hasks false
          · exact hasks true
        · exact .inl rfl
      · rw [State.offerFrame_data_notTaken hk (.inl hdest)]
        exact .inl rfl

/-- Of the blocks that act on a good frame the offer alone moves the receive queue. -/
theorem State.goodFrame_records (s : State) (o : EndOrder) (f : Frame) :
    (s.goodFrame o f).rxq.records = s.rxq.records ∨ recordedFrom s (s.goodFrame o f) f := by
  have hfrom {u v : State} (hu : u.rxq = s.rxq) (hstraps : u.straps = s.straps) (hv : v.rxq = (u.offerFrame f).rxq) :
      v.rxq.records = s.rxq.records ∨ recordedFrom s v f := by
    have hoffer := u.offerFrame_records f
    unfold recordedFrom at *
    rwa [hv, ← hu, ← hstraps]
  obtain ⟨rotationFirst, offerFirst⟩ := o
  cases rotationFirst <;> cases offerFirst <;> simp only [State.goodFrame, if_true, Bool.false_eq_true, if_false]
  · exact hfrom (u := (s.watchFrameEnd f).rotateFrame f) (s.watchFrameEnd_rxq f) (s.watchFrameEnd_straps f) rfl
  · exact hfrom (u := s) rfl rfl (State.watchFrameEnd_rxq ..)
  · exact hfrom (u := (s.rotateFrame f).watchFrameEnd f) (State.watchFrameEnd_rxq ..) (State.watchFrameEnd_straps ..) rfl
  · exact hfrom (u := s.rotateFrame f) rfl rfl (State.watchFrameEnd_rxq ..)

end

/-! ## A character delivered, as the queues see it -/

/-- The last character of a good frame is not faulty (R22). -/
theorem Assembler.deliver_good_sound {a : Assembler} {own h t : Nat} {c : RxChar} {f : Frame}
    (hgood : (a.deliver own h t c).2 = .good f) : c.faulty = false := by
  obtain ⟨ha, -⟩ := Assembler.deliver_good hgood
  rw [← Bool.not_eq_true]
  intro hfaulty
  rw [Assembler.deliver_fails ha (.inl hfaulty)] at hgood
  cases hgood

/-- A character ends a good frame, or leaves the receive queue and can at most close the watch with no answer. -/
theorem exec_characterDelivered_cases {s t : State} (o : EndOrder)
    (e : exec (.characterDelivered o.rotationFirst o.offerFirst) s = .next t) :
    (∃ f, endsGoodFrame s f ∧ t = (atFrameEnd s).goodFrame o f) ∨ t.rxq = s.rxq ∧ s.MayFail t := by
  have hstill {u : State} (hrxq : u.rxq = s.rxq) (hview : u.sendView = s.sendView) : u.rxq = s.rxq ∧ s.MayFail u :=
    ⟨hrxq, .inl hview⟩
  by_cases htaken : s.lineRuns = true ∧ s.rx.cond = .receiving ∧ s.rx.confirmed = true
  · obtain ⟨hr, hrx, hc⟩ := htaken
    rw [exec_characterDelivered_taken o hr hrx hc] at e
    injection e with e
    by_cases hfinishing : s.driver.cond = .finishing
    · rw [if_pos hfinishing] at e
      exact .inr (e ▸ hstill rfl rfl)
    rw [if_neg hfinishing] at e
    by_cases ha : s.asm.cond = .discarding
    · rw [State.deliver_discarding o (s := atStop s) ha] at e
      subst e
      refine .inr ⟨?_, ((atStop s).watchPassed_mayShut _).mayFail⟩
      rw [((atStop s).watchPassed_mayClose _).frame]
      rfl
    · cases hdeliver : s.asm.deliver s.straps.own s.straps.highest (atStop s).now s.rx.char with
      | mk a n =>
      rw [State.deliver_notice o (s := atStop s) ha hdeliver] at e
      cases n with
      | quiet => exact .inr (e ▸ hstill rfl rfl)
      | opened start kind => exact .inr (e ▸ hstill rfl rfl)
      | damage start =>
        subst e
        refine .inr ⟨?_, (((atStop s).setAsm a).damageNotice_mayShut start).mayFail⟩
        exact State.damageNotice_rxq ((atStop s).setAsm a) start
      | good f =>
        have hgood : (s.asm.deliver s.straps.own s.straps.highest (atStop s).now s.rx.char).2 = .good f := by
          rw [hdeliver]
        obtain ⟨hrst, hvalid⟩ := State.lineRuns_iff.1 hr
        have hends : endsGoodFrame s f := by
          refine ⟨⟨hrst, hvalid, hrx, hc, hfinishing⟩, Assembler.deliver_good_sound hgood, ?_⟩
          rwa [← atStop_now]
        have hexec := exec_characterDelivered_good o hends
        rw [exec_characterDelivered_taken o hr hrx hc, if_neg hfinishing,
          State.deliver_notice o (s := atStop s) ha hdeliver] at hexec
        injection hexec with hexec
        exact .inl ⟨f, hends, e.symm.trans hexec⟩
  · have hidle : exec (.characterDelivered o.rotationFirst o.offerFirst) s = .next s :=
      congrArg Host.Outcome.next (if_neg htaken)
    rw [hidle] at e
    injection e with e
    exact .inr (e ▸ hstill rfl rfl)

end Sys2Proof.Machine
end

section
/-! The events at which the budget count and the receive queue move: the resets, the closes with result OK, and the end
of a good frame. -/

namespace Sys2Proof.Machine

open Sys2Proof

/-! ## The closes with result OK (R158) -/

/-- A row of a command's transaction names its phase. -/
theorem hostRow_phase {h : HostCommand} {dt dt' : Nat} {p p' : HostPhase} (heq : hostRow h dt p = hostRow h dt' p') :
    p = p' := by
  cases h <;> simp_all [hostRow]

/-- What a command's judgement does: refused, nothing but its result; accepted, its effect with result OK. -/
def judges (act : State → State × Result) (u v : State) : Prop := (∃ r, r ≠ .ok ∧ act u = (u, r)) ∨ act u = (v, .ok)

/-- A row whose close acts: its effect at the close with result OK, and otherwise a change of the port alone. -/
theorem hostRow_cases {s t v : State} {h : HostCommand} {dt : Nat} {p : HostPhase} {complete : State → Bool}
    {act : State → State × Result}
    (ht : t = (s.advance dt).hostStep h p fun u => u.closeCommand (complete u) act) (hact : judges act (s.advance dt) v) :
    closesOk (hostRow h dt p) s t h ∧ s.rot.station ≠ .strapFault ∧ t = v.closedWith .ok ∨
      ¬ closesOk (hostRow h dt p) s t h ∧ ∃ w, t = (s.advance dt).setPort w := by
  have hrefused {r : Result} (hr : r ≠ .ok) (ht : t = (s.advance dt).closedWith r) :
      ¬ closesOk (hostRow h dt p) s t h ∧ ∃ w, t = (s.advance dt).setPort w := by
    refine ⟨fun ⟨_, _, _, hok⟩ => hr ?_, _, ht⟩
    rwa [ht] at hok
  rcases (s.advance dt).hostStep_cases h p fun u => u.closeCommand (complete u) act with
    ⟨⟨rfl, hopen, hcommand⟩, hclose⟩ | ⟨hnot, w, hport⟩
  · rw [hclose] at ht
    by_cases hs : s.rot.station = .strapFault
    · rw [State.closeCommand_refused (s := s.advance dt) hs] at ht
      exact .inr (hrefused (by decide) ht)
    · cases hc : complete (s.advance dt) with
      | false =>
        rw [State.closeCommand_incomplete (s := s.advance dt) hs hc] at ht
        exact .inr (hrefused (by decide) ht)
      | true =>
        rcases hact with ⟨r, hr, hact⟩ | hact <;> rw [State.closeCommand_acts (s := s.advance dt) hs hc hact] at ht
        · exact .inr (hrefused hr ht)
        · exact .inl ⟨⟨⟨dt, rfl⟩, hopen, hcommand, by rw [ht]; rfl⟩, hs, ht⟩
  · exact .inr ⟨fun ⟨⟨_, hrow⟩, hopen, hcommand, _⟩ => hnot ⟨hostRow_phase hrow, hopen, hcommand⟩, w, ht.trans hport⟩

/-! ## POST, REAP, TAKE and RESTART at their closes -/

section
variable {s t : State} {dt : Nat} {p : HostPhase}

theorem State.presentPost_judges (u : State) :
    judges State.presentPost u (u.appendEntry (u.port.params.getD 0 0).toNat (u.port.params.getD 1 0) u.port.postLength
      u.port.staging) := by
  by_cases h : u.judgePost (u.port.params.getD 0 0).toNat u.port.postLength = .ok
  · exact .inr (State.presentPost_accepted h)
  · exact .inl ⟨_, h, State.presentPost_refused h rfl⟩

theorem State.presentReap_judges (u : State) : judges State.presentReap u (u.setCompq u.compq.tail) := by
  unfold judges State.presentReap
  split
  · exact .inl ⟨.empty, nofun, rfl⟩
  · split
    · exact .inr rfl
    · exact .inl ⟨.incomplete, nofun, rfl⟩

theorem State.presentTake_judges (u : State) : judges State.presentTake u u.removeHeadRecord := by
  unfold judges State.presentTake
  split
  · exact .inl ⟨.empty, nofun, rfl⟩
  · split
    · exact .inr rfl
    · exact .inl ⟨.incomplete, nofun, rfl⟩

/-- What a POST's row does: an entry appended at the close with result OK, and otherwise a change of the port alone. -/
theorem exec_post_cases (e : exec (.post dt p) s = .next t) :
    closesOk (.post dt p) s t .post ∧ (∃ dest tag len payload,
        t = ((s.advance dt).appendEntry dest tag len payload).closedWith .ok) ∨
      ¬ closesOk (.post dt p) s t .post ∧ ∃ w, t = (s.advance dt).setPort w := by
  injection e with e
  rcases hostRow_cases (h := .post) e.symm (State.presentPost_judges _) with ⟨hok, -, ht⟩ | hport
  · exact .inl ⟨hok, _, _, _, _, ht⟩
  · exact .inr hport

theorem exec_reap_cases (e : exec (.reap dt p) s = .next t) :
    closesOk (.reap dt p) s t .reap ∧ t = ((s.advance dt).setCompq s.compq.tail).closedWith .ok ∨
      ¬ closesOk (.reap dt p) s t .reap ∧ ∃ w, t = (s.advance dt).setPort w := by
  injection e with e
  rcases hostRow_cases (h := .reap) (complete := fun _ => true) e.symm (State.presentReap_judges _) with
    ⟨hok, -, ht⟩ | hport
  · exact .inl ⟨hok, ht⟩
  · exact .inr hport

theorem exec_take_cases (e : exec (.take dt p) s = .next t) :
    closesOk (.take dt p) s t .take ∧ t = (s.advance dt).removeHeadRecord.closedWith .ok ∨
      ¬ closesOk (.take dt p) s t .take ∧ ∃ w, t = (s.advance dt).setPort w := by
  injection e with e
  rcases hostRow_cases (h := .take) (complete := fun _ => true) e.symm (State.presentTake_judges _) with
    ⟨hok, -, ht⟩ | hport
  · exact .inl ⟨hok, ht⟩
  · exact .inr hport

/-- What a RESTART's row does: the reset of every block at the close outside STRAP_FAULT, and otherwise a change of the
port alone (R174). -/
theorem exec_restart_cases (e : exec (.restart dt p) s = .next t) :
    resets (.restart dt p) s ∧ t = (s.advance dt).restart.closedWith .ok ∨
      ¬ resets (.restart dt p) s ∧ ∃ w, t = (s.advance dt).setPort w := by
  injection e with e
  have hreset : resets (.restart dt p) s ↔
      (p = .close ∧ s.port.state = .opened ∧ s.port.command = some .restart) ∧ s.rot.station ≠ .strapFault := by
    simp [resets, and_assoc]
  rw [hreset]
  rcases (s.advance dt).hostStep_cases .restart p
      (fun u => u.closeCommand true fun u => (u.restart, .ok)) with ⟨hclose, heq⟩ | ⟨hnot, w, heq⟩
  · by_cases hs : s.rot.station = .strapFault
    · rw [State.closeCommand_refused (s := s.advance dt) hs] at heq
      exact .inr ⟨fun ⟨_, h⟩ => h hs, _, e.symm.trans heq⟩
    · refine .inl ⟨⟨hclose, hs⟩, e.symm.trans (heq.trans ?_)⟩
      exact State.closeCommand_acts (s := s.advance dt) hs rfl rfl
  · exact .inr ⟨fun ⟨h, _⟩ => hnot h, w, e.symm.trans heq⟩

/-- What the release of RSTn does: with RSTn low a reset, and otherwise nothing but the clock (R2). -/
theorem exec_rstnRelease_cases {a b : BitVec 5} {r : BitVec 2} {l : Bool} (e : exec (.rstnRelease dt a b r l) s = .next t) :
    resets (.rstnRelease dt a b r l) s ∧ t = (s.advance dt).release a.toNat b.toNat r.toNat l ∨
      ¬ resets (.rstnRelease dt a b r l) s ∧ t = s.advance dt := by
  injection e with e
  by_cases hlow : s.rstLow = true
  · exact .inl ⟨.inr (.inl ⟨dt, a, b, r, l, rfl, hlow⟩), e.symm.trans (if_pos hlow)⟩
  · refine .inr ⟨?_, e.symm.trans (if_neg hlow)⟩
    rintro (⟨_, h⟩ | ⟨_, _, _, _, _, -, h⟩ | ⟨_, h, -⟩)
    · cases h
    · exact hlow h
    · cases h

end

/-! ## The budget count and the receive queue (R107, R141) -/

section
variable {c : Instr} {s t : State}

/-- A row that resets at other times leaves both queues and the records. -/
theorem exec_resetRow_queues (e : exec c s = .next t) (hrow : resetRow c) (hreset : ¬ resets c s) :
    t.txq = s.txq ∧ t.compq = s.compq ∧ t.rxq = s.rxq ∧ t.peers = s.peers := by
  rcases hrow with ⟨dt, rfl⟩ | ⟨dt, a, b, r, l, rfl⟩ | ⟨dt, rfl⟩
  · exact absurd (.inl ⟨dt, rfl⟩) hreset
  · rcases exec_rstnRelease_cases e with ⟨h, -⟩ | ⟨-, rfl⟩
    · exact absurd h hreset
    · exact ⟨rfl, rfl, rfl, rfl⟩
  · rcases exec_restart_cases e with ⟨h, -⟩ | ⟨-, w, rfl⟩
    · exact absurd h hreset
    · exact ⟨rfl, rfl, rfl, rfl⟩

/-- The resets empty the queues (R128, R153). -/
theorem exec_resets_queues (e : exec c s = .next t) (hreset : resets c s) :
    t.txq = [] ∧ t.compq = [] ∧ t.rxq = { records := [], tally := 0 } := by
  rcases hreset with ⟨dt, rfl⟩ | ⟨dt, a, b, r, l, rfl, hlow⟩ | ⟨dt, rfl, hrun⟩
  · injection e with e
    subst e
    exact ⟨rfl, rfl, rfl⟩
  · rcases exec_rstnRelease_cases e with ⟨-, rfl⟩ | ⟨hnot, -⟩
    · exact ⟨rfl, rfl, rfl⟩
    · exact absurd (.inr (.inl ⟨dt, a, b, r, l, rfl, hlow⟩)) hnot
  · rcases exec_restart_cases e with ⟨-, rfl⟩ | ⟨hnot, -⟩
    · exact ⟨rfl, rfl, rfl⟩
    · exact absurd (.inr (.inr ⟨dt, rfl, hrun⟩)) hnot

/-- Away from its rows the budget count stays (R107). -/
theorem exec_budget (e : exec c s = .next t) (h : ¬ budgetRow c) : t.budgetCount = s.budgetCount :=
  Moves.keeps (P := fun u => u.budgetCount = s.budgetCount)
    (fun _ _ m hu => (m.budget.resolve_right fun hrow => h hrow.1).trans hu) (exec_moves e) rfl

/-- Away from its rows the receive queue stays (R141). -/
theorem exec_receive (e : exec c s = .next t) (h : ¬ receiveRow c) : t.rxq = s.rxq :=
  Moves.keeps (P := fun u => u.rxq = s.rxq)
    (fun _ _ m hu => (m.receive.resolve_right fun hrow => h hrow.1).trans hu) (exec_moves e) rfl

/-- The budget count moves by the closes of POST and REAP with result OK and by the resets alone (R107). -/
theorem exec_budget_moves (e : exec c s = .next t) (hreset : ¬ resets c s) (hpost : ¬ closesOk c s t .post)
    (hreap : ¬ closesOk c s t .reap) : t.txq.length + t.compq.length = s.txq.length + s.compq.length := by
  by_cases hrow : budgetRow c
  · rcases hrow with hrow | ⟨dt, rfl⟩ | ⟨dt, rfl⟩
    · obtain ⟨htxq, hcompq, -, -⟩ := exec_resetRow_queues e hrow hreset
      rw [htxq, hcompq]
    · rcases exec_post_cases e with ⟨hok, -⟩ | ⟨-, w, rfl⟩
      · exact absurd hok hpost
      · rfl
    · rcases exec_reap_cases e with ⟨hok, -⟩ | ⟨-, w, rfl⟩
      · exact absurd hok hreap
      · rfl
  · exact exec_budget e hrow

/-- The receive queue moves by a character delivered, the close of TAKE with result OK and the resets alone (R141). -/
theorem exec_receive_moves (e : exec c s = .next t) (hreset : ¬ resets c s)
    (hcharacter : ∀ r f, c ≠ .characterDelivered r f) (htake : ¬ closesOk c s t .take) : t.rxq = s.rxq := by
  by_cases hrow : receiveRow c
  · rcases hrow with hrow | ⟨r, f, rfl⟩ | ⟨dt, rfl⟩
    · obtain ⟨-, -, hrxq, -⟩ := exec_resetRow_queues e hrow hreset
      exact hrxq
    · exact absurd rfl (hcharacter r f)
    · rcases exec_take_cases e with ⟨hok, -⟩ | ⟨-, w, rfl⟩
      · exact absurd hok htake
      · rfl
  · exact exec_receive e hrow

/-- A character delivered leaves the records, or appends the record of the good frame that it ends. -/
theorem exec_characterDelivered_records {a b : Bool} (e : exec (.characterDelivered a b) s = .next t) :
    t.rxq.records = s.rxq.records ∨ ∃ f, endsGoodFrame s f ∧ recordedFrom s t f := by
  rcases exec_characterDelivered_cases { rotationFirst := a, offerFirst := b } e with
    ⟨f, hends, rfl⟩ | ⟨hrxq, -⟩
  · rcases State.goodFrame_records (atFrameEnd s) { rotationFirst := a, offerFirst := b } f with h | h
    · exact .inl h
    · exact .inr ⟨f, hends, h⟩
  · exact .inl (congrArg _ hrxq)

end

end Sys2Proof.Machine
end

section
/-! The events at which a send state moves: every command makes at most one of them, a conclusion or the retry after an
OUT_OF_STEP answer. -/

namespace Sys2Proof.Machine

open Sys2Proof

/-! ## The events (R69 to R72) -/

/-- The commands that bring a cancel to an entry attempted before: the end of a watch, a lost report, and the close of a
CANCEL (R121, R123). -/
def cancelsAttempted (c : Instr) : Prop :=
  endsAWatch c ∨ (∃ cell tap, c = .loss cell tap ∨ c = .lineFault cell tap) ∨ ∃ dt, c = .cancel dt .close

/-- What a conclusion of the entry with an outcome tells of its command, and of the refresh that it brings. -/
def concludesFor (c : Instr) (s : State) (e : TxEntry) (refresh : Bool) : TxOutcome → Prop
  | .delivered => ∃ a b, c = .characterDelivered a b
  | .noAnswer => refresh = true ∧ 4 ≤ e.attempts ∧ endsAWatch c
  | .cancelledAfterAttempt => refresh = true ∧ (s.headLaw → cancelsAttempted c)
  | .sent => refresh = false
  | .refused => refresh = false
  | .cancelled => refresh = false

/-- What a command does to the send states: nothing, the refresh of a retry after OUT_OF_STEP, or the claim of one
conclusion. -/
inductive SendEvent (c : Instr) (s t : State) : Prop where
  | still (hcompq : t.compq = s.compq ∨ t.compq = s.compq.tail) (hsends : t.sendView.sends = s.sendView.sends)
  | retried (k : Nat) (hretried : outOfStepRetried c s t k)
      (hsends : t.sendView.sends = s.sendView.sends.modify k sendRefreshed)
  | concluded (e : TxEntry) (o : TxOutcome) (refresh : Bool) (hcompq : t.compq = s.compq ++ [e.record o])
      (hsends : t.sendView.sends =
        if e.isCast = true then s.sendView.sends else s.sendView.sends.modify e.dest (sendConcluded o refresh))
      (hcause : concludesFor c s e refresh o)

/-- The completion queue and the send states are as they were. -/
def State.SendsKept (s u : State) : Prop := u.compq = s.compq ∧ u.sendView.sends = s.sendView.sends

section
variable {c : Instr} {s t u : State}

theorem State.SendsKept.event : s.SendsKept t → SendEvent c s t
  | ⟨hcompq, hsends⟩ => .still (.inl hcompq) hsends

theorem State.SendsKept.of_view (h : t.sendView = s.sendView) : s.SendsKept t :=
  ⟨congrArg SendView.compq h, congrArg SendView.sends h⟩

/-- The events look at the send view alone. -/
theorem SendEvent.of_view (h : SendEvent c s u) (hview : t.sendView = u.sendView) : SendEvent c s t := by
  have htxq : t.txq = u.txq := congrArg SendView.txq hview
  have hcompq : t.compq = u.compq := congrArg SendView.compq hview
  cases h with
  | still hc hs => exact .still (hcompq ▸ hc) (by rw [hview, hs])
  | retried k hretried hs =>
    refine .retried k ?_ (by rw [hview, hs])
    unfold outOfStepRetried at *
    rwa [htxq, hcompq]
  | concluded e o refresh hc hs hcause => exact .concluded e o refresh (hcompq.trans hc) (by rw [hview, hs]) hcause

/-- A change of peer entries that leaves their send states. -/
theorem State.sends_modifyPeer (u : State) (k : Nat) {g : PeerEntry → PeerEntry} (h : ∀ p, (g p).send = p.send) :
    (u.modifyPeer k g).sendView.sends = u.sendView.sends :=
  (map_modify_of (f' := id) h u.peers k).trans (List.modify_id ..)

/-! ## A conclusion (R116, R121) -/

theorem State.SendsKept.conclude (h : s.SendsKept u) {ref : Nat} {o : TxOutcome} {refresh : Bool}
    (hcause : ∀ e, concludesFor c s e refresh o) : SendEvent c s (u.conclude ref o refresh) := by
  obtain ⟨hcompq, hsends⟩ := h
  cases hfound : findEntry u.txq ref with
  | none =>
    rw [State.conclude_missing hfound]
    exact State.SendsKept.event ⟨hcompq, hsends⟩
  | some e =>
    have hview := State.concludedAs_sendView u e o refresh
    rw [State.conclude_concludedAs hfound]
    refine .concluded e o refresh ?_ ?_ (hcause e)
    · rw [← hcompq]
      rfl
    · rw [hview, ← hsends]
      rfl

theorem State.SendsKept.concludeCancelled (h : s.SendsKept u) {e : TxEntry}
    (hcause : s.headLaw → cancelsAttempted c) : SendEvent c s (u.concludeCancelled e) := by
  unfold State.concludeCancelled
  split
  · exact h.conclude fun _ => ⟨rfl, hcause⟩
  · exact h.conclude fun _ => rfl

theorem State.SendsKept.returnEntry (h : s.SendsKept u) {ref : Nat}
    (hcause : ∀ e, findEntry u.txq ref = some e → e.cancelPending = true → s.headLaw → cancelsAttempted c) :
    SendEvent c s (u.returnEntry ref) := by
  rcases u.returnEntry_cases ref with heq | ⟨e, hfound, ⟨hpending, heq⟩ | ⟨-, heq⟩⟩ <;> rw [heq]
  · exact h.event
  · exact h.concludeCancelled (hcause e hfound hpending)
  · obtain ⟨hcompq, hsends⟩ := h
    refine State.SendsKept.event ⟨hcompq, Eq.trans ?_ hsends⟩
    split
    · exact u.sends_modifyPeer e.dest fun _ => rfl
    · rfl

/-! ## A watch result (R96, R99 to R102) -/

/-- What a result concludes an entry with (R99 to R102, R123). -/
theorem TxEntry.resultEffect_conclude {e : TxEntry} {r : WatchResult} {o : TxOutcome} {refresh : Bool}
    (h : e.resultEffect r = .conclude o refresh) (hc : endsAWatch c)
    (hcode : ∀ k, r = .code k → ∃ a b, c = .characterDelivered a b) : concludesFor c s e refresh o := by
  have hcancelled : concludesFor c s e true .cancelledAfterAttempt := ⟨rfl, fun _ => .inl hc⟩
  unfold TxEntry.resultEffect at h
  split at h
  · cases h
    exact hcode _ rfl
  · cases h
    exact hcode _ rfl
  · split at h
    · cases h
      exact hcancelled
    · split at h <;> cases h
      exact rfl
  · split at h
    · cases h
      exact hcancelled
    · split at h <;> cases h
      exact ⟨rfl, ‹_›, hc⟩
  · split at h
    · cases h
      exact hcancelled
    · split at h <;> cases h
      exact ⟨rfl, ‹_›, hc⟩

/-- A result that refreshes and does not conclude is OUT_OF_STEP below the fourth attempt (R101). -/
theorem TxEntry.resultEffect_refreshes {e : TxEntry} {r : WatchResult}
    (h : (e.countResult r).resultEffect r = .outstanding true) :
    r = .code .outOfStep ∧ e.cancelPending = false ∧ e.attempts < 4 := by
  have hc : e.cancelPending = false := (e.countResult_cancelPending r).symm.trans (TxEntry.resultEffect_outstanding h)
  match r with
  | .code .taken => cases h
  | .code .takenAgain => cases h
  | .code .busy =>
    rw [TxEntry.resultEffect_busy hc] at h
    split at h <;> cases h
  | .code .outOfStep =>
    rw [TxEntry.resultEffect_outOfStep hc] at h
    split at h
    · exact ⟨rfl, hc, ‹_›⟩
    · cases h
  | .noAnswer =>
    rw [TxEntry.resultEffect_noAnswer hc] at h
    split at h <;> cases h

/-- The result of a watch is one event; one that refreshes without a conclusion is a retry. -/
theorem SendEvent.of_result {ref : Nat} {r : WatchResult} (ht : t.sendView = s.sendView.result ref r)
    (hc : endsAWatch c) (hcode : ∀ k, r = .code k → ∃ a b, c = .characterDelivered a b)
    (hretry : ∀ e, r = .code .outOfStep → findEntry s.txq ref = some e → e.state = .inFlight →
      e.cancelPending = false → e.attempts < 4 → t.compq = s.compq →
      t.txq = updateEntry s.txq ref (fun x => { x with state := .outstanding }) → outOfStepRetried c s t e.dest) :
    SendEvent c s t := by
  by_cases hfound : ∃ e, findEntry s.txq ref = some e ∧ e.state = .inFlight
  · obtain ⟨e, h, hflight⟩ := hfound
    rw [SendView.result_inFlight (v := s.sendView) h hflight] at ht
    cases heffect : (e.countResult r).resultEffect r with
    | conclude o refresh =>
      rw [heffect] at ht
      exact .concluded (e.countResult r) o refresh (congrArg SendView.compq ht) (congrArg SendView.sends ht)
        (TxEntry.resultEffect_conclude heffect hc hcode)
    | outstanding refresh =>
      rw [heffect] at ht
      cases refresh with
      | false =>
        have hsends : t.sendView.sends = s.sendView.sends := by rw [ht]; rfl
        exact .still (.inl (congrArg SendView.compq ht)) hsends
      | true =>
        obtain ⟨hr, hpending, hattempts⟩ := TxEntry.resultEffect_refreshes heffect
        refine .retried e.dest (hretry e hr h hflight hpending hattempts (congrArg SendView.compq ht) ?_)
          (congrArg SendView.sends ht)
        refine (congrArg SendView.txq ht).trans (updateEntry_congr h ?_)
        rw [hr]
        rfl
  · have hidle : ∀ e, findEntry s.sendView.txq ref = some e → e.state ≠ .inFlight :=
      fun e h hflight => hfound ⟨e, h, hflight⟩
    rw [SendView.result_idle hidle] at ht
    exact (State.SendsKept.of_view ht).event

theorem State.MayFail.event (h : s.MayFail t) (hc : endsAWatch c) : SendEvent c s t := by
  rcases h with h | ⟨ref, h⟩
  · exact (State.SendsKept.of_view h).event
  · exact .of_result h hc nofun nofun

/-! ## A character delivered (R96) -/

/-- A held frame gives a code only as a matching ANSWER in time (R96). -/
theorem heldResult_code {own : Nat} {w : Watched} {h : HeldFrame} {f : Frame} {k : AnswerCode}
    (hcode : heldResult own w h f = .code k) :
    (f.kind = .answer ∧ f.own = false ∧ f.sameNumber = false ∧ h.inTime = true ∧ f.sender = w.dest ∧ f.dest = own ∧
      f.seq = w.seq) ∧ f.code = k := by
  unfold heldResult at hcode
  split at hcode
  · rename_i hmatch
    cases hcode
    exact ⟨hmatch, rfl⟩
  · cases hcode

theorem exec_characterDelivered_event {a b : Bool} (e : exec (.characterDelivered a b) s = .next t) :
    SendEvent (.characterDelivered a b) s t := by
  have hc : endsAWatch (.characterDelivered a b) := .inl ⟨a, b, rfl⟩
  rcases exec_characterDelivered_cases { rotationFirst := a, offerFirst := b } e with ⟨f, hends, rfl⟩ | ⟨-, hfail⟩
  · by_cases hholds : holdsFrame s.watch f
    · obtain ⟨w, em, h, hwatch, hstart⟩ := hholds
      refine .of_result (State.goodFrame_sendView_held (s := atFrameEnd s) _ hwatch hstart) hc
        (fun _ _ => ⟨a, b, rfl⟩) fun e hr hfound hflight hpending hattempts hcompq htxq => ?_
      obtain ⟨⟨hk, ho, hs, htime, hsender, hdest, hseq⟩, hcode⟩ := heldResult_code hr
      exact ⟨a, b, f, w, em, h, e, rfl, hends, hwatch, hstart, hk, ho, hs, htime, hsender, hdest, hseq, hcode, hfound,
        hflight, hpending, hattempts, rfl, hcompq, htxq⟩
    · have hview := State.goodFrame_sendView_notHeld (s := atFrameEnd s) { rotationFirst := a, offerFirst := b } hholds
      exact (State.SendsKept.of_view (s := s) hview).event
  · exact hfail.event hc

/-- A retry after OUT_OF_STEP refreshes its peer (R70, R101). -/
theorem outOfStepRetried_sends {k : Nat} (e : exec c s = .next t) (h : outOfStepRetried c s t k) :
    t.sendView.sends = s.sendView.sends.modify k sendRefreshed := by
  obtain ⟨a, b, f, w, em, h, x, rfl, hends, hwatch, hstart, hk, ho, hs, htime, hsender, hdest, hseq, hcode, hfound,
    hflight, hpending, hattempts, rfl, -, -⟩ := h
  rw [exec_characterDelivered_good { rotationFirst := a, offerFirst := b } hends] at e
  injection e with e
  have hresult : heldResult s.straps.own w h f = .code .outOfStep :=
    (heldResult_matching hk ho hs htime hsender hdest hseq).trans (congrArg _ hcode)
  have hview := State.goodFrame_sendView_held (s := atFrameEnd s) { rotationFirst := a, offerFirst := b } hwatch hstart
  rw [e, SendView.result_inFlight (v := (atFrameEnd s).sendView) hfound hflight,
    show (atFrameEnd s).straps.own = s.straps.own from rfl, hresult, TxEntry.resultEffect_outOfStep hpending,
    if_pos hattempts] at hview
  exact congrArg SendView.sends hview

/-! ## The reports and the station's own turn -/

theorem State.toNextStart_sendView (s : State) : s.toNextStart.sendView = s.sendView := by
  unfold State.toNextStart
  split <;> rfl

/-- The end of the emission of a CAST concludes it, and no other report moves a send state (R111, R112). -/
theorem State.SendsKept.emittedReport (h : s.SendsKept u) (src : FrameSource) : SendEvent c s (u.emittedReport src) := by
  obtain ⟨hcompq, hsends⟩ := h
  cases src with
  | none => exact State.SendsKept.event ⟨hcompq, hsends⟩
  | answer =>
    rw [State.emittedReport, State.endEmittedAnswer_frame]
    exact State.SendsKept.event ⟨hcompq, hsends⟩
  | transmit ref kind =>
    cases kind with
    | cast => exact State.SendsKept.conclude (u := u.setRot (u.rot.onEmitted .cast)) ⟨hcompq, hsends⟩ fun _ => rfl
    | data => exact State.SendsKept.event ⟨hcompq, hsends⟩
    | answer => exact State.SendsKept.event ⟨hcompq, hsends⟩

theorem State.SendsKept.charSent (h : s.SendsKept u) : SendEvent c s u.charSent := by
  unfold State.charSent
  dsimp only
  split
  · exact State.SendsKept.emittedReport (u := (u.setDriver { u.driver with sent := true, next := none }).setEm Emitter.init)
      h u.em.source
  · exact State.SendsKept.event h

theorem State.SendsKept.lostReport (h : s.SendsKept u) (src : FrameSource) (start : Nat) (m : Mismatch)
    (hc : cancelsAttempted c) : SendEvent c s (u.lostReport src start m) := by
  cases src with
  | none => exact h.event
  | answer =>
    rw [State.lostReport, State.endEmittedAnswer_frame]
    exact State.SendsKept.event h
  | transmit ref kind =>
    cases kind with
    | cast =>
      exact State.SendsKept.returnEntry (u := u.setRot (u.rot.onLost .cast start u.now m)) h fun _ _ _ _ => hc
    | data =>
      exact State.SendsKept.returnEntry (u := (u.setRot (u.rot.onLost .data start u.now m)).setWatch u.watch.onLost) h
        fun _ _ _ _ => hc
    | answer =>
      exact State.SendsKept.returnEntry (u := (u.setRot (u.rot.onLost .data start u.now m)).setWatch u.watch.onLost) h
        fun _ _ _ _ => hc

theorem State.SendsKept.mismatch (h : s.SendsKept u) (k : MismatchKind) (cell : Nat) (hc : cancelsAttempted c) :
    SendEvent c s (u.mismatch k cell) := by
  unfold State.mismatch
  dsimp only
  split
  · exact State.SendsKept.lostReport
      (u := ((u.setDriver Driver.init).setRx { u.rx with driven := false }).setEm Emitter.init) h _ _ _ hc
  · exact State.SendsKept.event h

/-- A frame begun moves no send state: its DATA is named to its peer alone (R68). -/
theorem State.startEntry_sendsKept (u : State) (e : TxEntry) : u.SendsKept (u.startEntry e) := by
  rw [State.startEntry_eq, State.beginFrame_eq]
  refine ⟨rfl, ?_⟩
  by_cases hdest : e.dest = 31
  · simp only [State.sendView, hdest, if_true]
  · simp only [State.sendView, hdest, if_false]
    exact u.sends_modifyPeer e.dest fun _ => rfl

/-- Under the law of selection no cancel is deferred against an entry that the emitter refuses (R108, R122). -/
theorem State.SendsKept.notStarted (h : s.SendsKept u) (hlaw : s.headLaw → u.headLaw) {e : TxEntry}
    (hoffer : offer u.txq = some e) : SendEvent c s (u.notStarted e) := by
  refine State.SendsKept.returnEntry (u := u.setTxq (updateEntry u.txq e.ref TxEntry.keptState)) h
    fun x hx hpending l => ?_
  have lu := hlaw l
  obtain ⟨hnot, -⟩ := lu.notStarted_eq hoffer
  have hkept := findEntry_updateEntry (f := TxEntry.keptState) (fun _ => rfl)
    (findEntry_mem lu.nodup (offer_mem hoffer))
  obtain rfl : e.keptState = x := Option.some.inj (hkept.symm.trans hx)
  exact absurd (hnot.symm.trans hpending) (by decide)

theorem State.SendsKept.ownTurn (h : s.SendsKept u) (hlaw : s.headLaw → u.headLaw) : SendEvent c s u.ownTurn := by
  unfold State.ownTurn
  split
  · split
    · rename_i e hoffer
      unfold State.requestEntry
      split
      · obtain ⟨hcompq, hsends⟩ := u.startEntry_sendsKept e
        exact State.SendsKept.event ⟨hcompq.trans h.1, hsends.trans h.2⟩
      · exact h.notStarted hlaw hoffer
    · exact h.event
  · exact h.event

theorem State.SendsKept.slotStart (h : s.SendsKept u) (hlaw : s.headLaw → u.headLaw) (i : Nat) :
    SendEvent c s (u.slotStart i) := by
  unfold State.slotStart
  dsimp only
  split
  · exact State.SendsKept.ownTurn (u := u.setRot (u.rot.takeSlot i)) h hlaw
  · exact State.SendsKept.event h

/-! ## The host's rows -/

/-- A row of a transaction whose close leaves the send view leaves it at every step. -/
theorem State.hostStep_sendView {h : HostCommand} {p : HostPhase} {close : State → State}
    (hclose : (close u).sendView = u.sendView) : (u.hostStep h p close).sendView = u.sendView := by
  rcases u.hostStep_cases h p close with ⟨-, heq⟩ | ⟨-, v, heq⟩ <;> rw [heq]
  · exact hclose
  · rfl

theorem State.closeCommand_sendView {complete : Bool} {act : State → State × Result}
    (hact : (act u).1.sendView = u.sendView) : (u.closeCommand complete act).sendView = u.sendView := by
  unfold State.closeCommand
  split
  · rfl
  · split
    · exact hact
    · rfl

theorem State.firstByte_port (u : State) (p : FirstByteStep) : ∃ v, u.firstByte p = u.setPort v := by
  have hdecode (b : Byte) (w : State) : ∃ v, State.decodeCommand b w = w.setPort v := ⟨_, rfl⟩
  cases p with
  | rise m => exact u.sckRise_port m hdecode
  | fall => exact ⟨_, rfl⟩
  | byte b => exact u.sckByte_port b hdecode

/-- The close of a CANCEL makes at most the one conclusion of its entry (R121). -/
theorem exec_cancel_event {dt : Nat} {p : HostPhase} (e : exec (.cancel dt p) s = .next t) :
    SendEvent (.cancel dt p) s t := by
  injection e with e
  subst e
  rcases (s.advance dt).hostStep_cases .cancel p _ with ⟨⟨rfl, -⟩, heq⟩ | ⟨-, v, heq⟩ <;> rw [heq]
  · have hkept : s.SendsKept (s.advance dt) := ⟨rfl, rfl⟩
    unfold State.closeCommand
    split
    · exact State.SendsKept.event hkept
    · split
      · refine SendEvent.of_view (u := ((s.advance dt).cancelTag _).1) ?_ rfl
        unfold State.cancelTag
        split
        · exact hkept.event
        · unfold State.cancelEntry
          split
          · exact State.SendsKept.event hkept
          · exact hkept.concludeCancelled fun _ => .inr (.inr ⟨dt, rfl⟩)
      · exact State.SendsKept.event hkept
  · exact State.SendsKept.event ⟨rfl, rfl⟩

end

/-! ## Every command -/

section
variable {c : Instr} {s t : State}

theorem State.MayFail.ite {p : Prop} [Decidable p] {u : State} (h : p → s.MayFail u) :
    s.MayFail (if p then u else s) := by
  split
  · exact h ‹_›
  · exact .inl rfl

theorem SendEvent.ite {p : Prop} [Decidable p] {u : State} (h : p → SendEvent c s u) :
    SendEvent c s (if p then u else s) := by
  split
  · exact h ‹_›
  · exact State.SendsKept.event ⟨rfl, rfl⟩

/-- Every command but the resets and the close of a FLUSH makes at most one event. -/
theorem exec_sendEvent (e : exec c s = .next t) (hreset : ¬ resets c s) (hflush : ∀ dt, c ≠ .flush dt .close) :
    SendEvent c s t := by
  have same {u : State} (h : u.sendView = s.sendView) : SendEvent c s u := (State.SendsKept.of_view h).event
  have row {h : HostCommand} {dt : Nat} {p : HostPhase} {close : State → State}
      (hclose : (close (s.advance dt)).sendView = s.sendView) : SendEvent c s ((s.advance dt).hostStep h p close) :=
    same (State.hostStep_sendView (u := s.advance dt) hclose)
  have acts {dt : Nat} {complete : Bool} {act : State → State × Result}
      (hact : (act (s.advance dt)).1.sendView = s.sendView) :
      ((s.advance dt).closeCommand complete act).sendView = s.sendView :=
    State.closeCommand_sendView (u := s.advance dt) hact
  have resetting (hrow : resetRow c) : SendEvent c s t := by
    obtain ⟨htxq, hcompq, -, hpeers⟩ := exec_resetRow_queues e hrow hreset
    exact same (by simp only [State.sendView, htxq, hcompq, hpeers])
  have started : s.toNextStart.sendView = s.sendView := s.toNextStart_sendView
  have kept (i : Nat) : s.SendsKept (s.toNextStart.runTo i) := .of_view started
  cases c
  case pinReset dt => exact resetting (.inl ⟨dt, rfl⟩)
  case rstnRelease dt a b r l => exact resetting (.inr (.inl ⟨dt, a, b, r, l, rfl⟩))
  case restart dt p =>
    rcases exec_restart_cases e with ⟨h, -⟩ | ⟨-, w, rfl⟩
    · exact absurd h hreset
    · exact same rfl
  case characterDelivered a b => exact exec_characterDelivered_event e
  case cancel dt p => exact exec_cancel_event e
  case post dt p =>
    rcases exec_post_cases e with ⟨-, dest, tag, len, payload, rfl⟩ | ⟨-, w, rfl⟩
    · exact .still (.inl rfl) rfl
    · exact same rfl
  case reap dt p =>
    rcases exec_reap_cases e with ⟨-, rfl⟩ | ⟨-, w, rfl⟩
    · exact .still (.inr rfl) rfl
    · exact same rfl
  case take dt p =>
    rcases exec_take_cases e with ⟨-, rfl⟩ | ⟨-, w, rfl⟩
    · refine same ?_
      unfold State.removeHeadRecord
      split <;> rfl
    · exact same rfl
  case flush dt p =>
    injection e with e
    rcases (s.advance dt).hostStep_cases .flush p _ with ⟨⟨rfl, -⟩, -⟩ | ⟨-, w, heq⟩
    · exact absurd rfl (hflush dt)
    · rw [heq] at e
      exact same (e ▸ rfl)
  all_goals injection e with e; subst e
  case startGlitch rotationFirst =>
    refine State.MayFail.event (State.MayFail.ite fun _ => ?_) (.inr (.inl ⟨rotationFirst, rfl⟩))
    exact State.glitch_mayFail (s.runTo _) rotationFirst
  case frameTruncation =>
    refine State.MayFail.event (State.MayFail.ite fun _ => ?_) (.inr (.inr (.inl rfl)))
    exact (State.damageNotice_mayShut ((s.runTo _).setAsm s.asm.damaged) s.asm.startInstant).mayFail
  case watchWindowEnd =>
    refine State.MayFail.event ?_ (.inr (.inr (.inr rfl)))
    split
    · dsimp only
      split
      · exact .inl rfl
      · exact .inr ⟨_, State.closeWatch_sendView ..⟩
    · exact .inl rfl
    · exact .inl rfl
    · exact .inl rfl
  case characterSent => exact .ite fun _ => (kept _).charSent
  case loss cell tap => exact .ite fun _ => (kept _).mismatch _ _ (.inr (.inl ⟨cell, tap, .inl rfl⟩))
  case lineFault cell tap => exact .ite fun _ => (kept _).mismatch _ _ (.inr (.inl ⟨cell, tap, .inr rfl⟩))
  case slotStart => exact .ite fun _ => State.SendsKept.slotStart (s := s) (u := s.runTo _) ⟨rfl, rfl⟩ id _
  case discardSettle => exact .ite fun _ => same rfl
  case finishingEnd m =>
    refine .ite fun _ => same ?_
    split <;> rfl
  case secondRestSlotEnd =>
    refine .ite fun _ => same ?_
    unfold State.restTest
    split <;> rfl
  case restDueRest => exact .ite fun _ => same rfl
  case quietMeasurementRest => exact .ite fun _ => same rfl
  case rotationWindowEnd =>
    split
    · refine .ite fun _ => same ?_
      dsimp only
      split <;> rfl
    · exact same rfl
  case answerWindowStart =>
    split
    · refine .ite fun _ => same ?_
      unfold State.answerWindow
      split <;> rfl
    · exact same rfl
  case transactionOpen dt =>
    refine same ?_
    split <;> rfl
  case commandDecode dt p =>
    refine same ?_
    split
    · obtain ⟨v, hv⟩ := (s.advance dt).firstByte_port p
      rw [hv]
      rfl
    · rfl
  case postPayloadByte dt b =>
    refine same ?_
    split
    · obtain ⟨v, hv⟩ := (s.advance dt).sckByte_port b fun b u => u.exchange_port .post b
      rw [hv]
      rfl
    · rfl
  case voidTransaction dt =>
    refine same ?_
    dsimp only
    split <;> rfl
  case barredCsnRise dt =>
    refine same ?_
    dsimp only
    split <;> rfl
  case nop dt p => exact row rfl
  case unknownCommand dt p => exact row rfl
  case status dt p =>
    refine row ?_
    unfold State.closeStatus
    split <;> rfl
  case peer dt p => exact row rfl
  case leave dt p =>
    refine row (acts ?_)
    unfold State.presentLeave
    split <;> rfl
  case rejoin dt p =>
    refine row (acts ?_)
    unfold State.presentRejoin
    split <;> rfl
  case startEdge dt =>
    refine same ?_
    unfold State.startEdge
    split
    · split <;> rfl
    · rfl
  case firstRecessiveSample dt =>
    refine same ?_
    split <;> rfl
  case dominantSample dt =>
    refine same ?_
    split <;> rfl

end

/-! ## One peer entry (R69 to R72) -/

section
variable {c : Instr} {s t : State} {k : Nat} {p q : PeerEntry}

theorem PeerEntry.send_eq_iff {x : Seq} {b : Bool} : q.send = (x, b) ↔ q.txSeq = x ∧ q.refreshDue = b :=
  Prod.mk_inj

/-- The ways in which the send state of the peer entry of station `k` moves at a command (R69 to R71). -/
def sendMoves (c : Instr) (s t : State) (k : Nat) (p q : PeerEntry) : Prop :=
  q.txSeq = p.txSeq ∧ q.refreshDue = p.refreshDue ∨
    q.txSeq = p.txSeq + 1 ∧ q.refreshDue = true ∧ refreshCause c s t k ∨
    q.txSeq = p.txSeq + 1 ∧ q.refreshDue = false ∧ (∃ a b, c = .characterDelivered a b) ∧
      ∃ r, t.compq = s.compq ++ [r] ∧ r.outcome = .delivered ∧ r.dest = k

/-- What each conclusion of a DATA to station `k` does to its send state (R69, R70). -/
def sendClaims (s t : State) (k : Nat) (p q : PeerEntry) : Prop :=
  ∀ r, k ≤ 30 → t.compq = s.compq ++ [r] → r.dest = k →
    (r.outcome = .delivered → q.txSeq = p.txSeq + 1 ∧ q.refreshDue = false) ∧
    (r.outcome = .noAnswer ∨ r.outcome = .cancelledAfterAttempt → q.txSeq = p.txSeq + 1 ∧ q.refreshDue = true)

/-- Without a record appended there is no conclusion. -/
theorem sendClaims_of_no_record (h : t.compq = s.compq ∨ t.compq = s.compq.tail) : sendClaims s t k p q := by
  intro r _ hr
  have hlen : t.compq.length ≤ s.compq.length := by
    rcases h with h | h <;> rw [h]
    rw [List.length_tail]
    exact Nat.sub_le ..
  rw [hr, List.length_append, List.length_singleton] at hlen
  exact absurd hlen (Nat.not_succ_le_self _)

/-- A conclusion at the peer entry that it claims. -/
theorem sends_of_conclusion {e : TxEntry} {o : TxOutcome} {refresh : Bool} (hcompq : t.compq = s.compq ++ [e.record o])
    (hdest : e.dest = k) (hcause : concludesFor c s e refresh o) (hq : q.send = sendConcluded o refresh p.send) :
    sendMoves c s t k p q ∧ sendClaims s t k p q := by
  have hrecord {r : CompletionRecord} (hr : t.compq = s.compq ++ [r]) : e.record o = r :=
    List.singleton_inj.1 (List.append_cancel_left (hcompq.symm.trans hr))
  cases o with
  | delivered =>
    obtain ⟨hseq, hdue⟩ := PeerEntry.send_eq_iff.1 hq
    refine ⟨.inr (.inr ⟨hseq, hdue, hcause, _, hcompq, rfl, hdest⟩), fun r _ hr _ => ?_⟩
    obtain rfl := hrecord hr
    exact ⟨fun _ => ⟨hseq, hdue⟩, nofun⟩
  | noAnswer =>
    obtain ⟨rfl, hattempts, hc⟩ := hcause
    obtain ⟨hseq, hdue⟩ := PeerEntry.send_eq_iff.1 hq
    refine ⟨.inr (.inl ⟨hseq, hdue, .inr ⟨_, hcompq, hdest, .inl ⟨rfl, hattempts, hc⟩⟩⟩), fun r _ hr _ => ?_⟩
    obtain rfl := hrecord hr
    exact ⟨nofun, fun _ => ⟨hseq, hdue⟩⟩
  | cancelledAfterAttempt =>
    obtain ⟨rfl, hc⟩ := hcause
    obtain ⟨hseq, hdue⟩ := PeerEntry.send_eq_iff.1 hq
    refine ⟨.inr (.inl ⟨hseq, hdue, .inr ⟨_, hcompq, hdest, .inr ⟨rfl, hc⟩⟩⟩), fun r _ hr _ => ?_⟩
    obtain rfl := hrecord hr
    exact ⟨nofun, fun _ => ⟨hseq, hdue⟩⟩
  | sent | refused | cancelled =>
    obtain rfl : refresh = false := hcause
    refine ⟨.inl (PeerEntry.send_eq_iff.1 hq), fun r _ hr _ => ?_⟩
    obtain rfl := hrecord hr
    simp [TxEntry.record]

/-- A peer entry has its place in the peer table, and its send state that of the send states. -/
theorem exists_peer_of_sends {x : Seq × Bool} (h : t.sendView.sends[k]? = some x) :
    ∃ q, t.peers[k]? = some q ∧ q.send = x := by
  simpa [State.sendView, List.getElem?_map, Option.map_eq_some_iff] using h

/-- A send state after the change of one. -/
theorem sends_modify {j : Nat} {g : Seq × Bool → Seq × Bool} (hp : s.peers[k]? = some p) :
    (s.sendView.sends.modify j g)[k]? = some (if j = k then g p.send else p.send) := by
  simp only [State.sendView, List.getElem?_modify, List.getElem?_map, hp, Option.map_some, Option.map_eq_map]

/-- What an event does to a peer entry. -/
theorem SendEvent.peer (h : SendEvent c s t) (hp : s.peers[k]? = some p) :
    ∃ q, t.peers[k]? = some q ∧ sendMoves c s t k p q ∧ sendClaims s t k p q := by
  have hsend : s.sendView.sends[k]? = some p.send := by simp [State.sendView, hp]
  have hsame {q : PeerEntry} (hq : q.send = p.send) : sendMoves c s t k p q := .inl (PeerEntry.send_eq_iff.1 hq)
  cases h with
  | still hcompq hsends =>
    obtain ⟨q, hq, hqsend⟩ := exists_peer_of_sends (hsends ▸ hsend)
    exact ⟨q, hq, hsame hqsend, sendClaims_of_no_record hcompq⟩
  | retried j hretried hsends =>
    have hmodified := sends_modify (j := j) (g := sendRefreshed) hp
    rw [← hsends] at hmodified
    obtain ⟨q, hq, hqsend⟩ := exists_peer_of_sends hmodified
    have hcompq : t.compq = s.compq := by
      obtain ⟨a, b, f, w, em, h, e, -, -, -, -, -, -, -, -, -, -, -, -, -, -, -, -, -, hcompq, -⟩ := hretried
      exact hcompq
    refine ⟨q, hq, ?_, sendClaims_of_no_record (.inl hcompq)⟩
    split at hqsend
    · rename_i hjk
      obtain ⟨hseq, hdue⟩ := PeerEntry.send_eq_iff.1 hqsend
      exact .inr (.inl ⟨hseq, hdue, .inl (hjk ▸ hretried)⟩)
    · exact hsame hqsend
  | concluded e o refresh hcompq hsends hcause =>
    have hother (hne : k ≤ 30 → e.dest ≠ k) {q : PeerEntry} : sendClaims s t k p q := fun r hk hr hdest => by
      have heq := List.singleton_inj.1 (List.append_cancel_left (hcompq.symm.trans hr))
      rw [← heq] at hdest
      exact absurd hdest (hne hk)
    cases hcast : e.isCast with
    | true =>
      rw [if_pos hcast] at hsends
      obtain ⟨q, hq, hqsend⟩ := exists_peer_of_sends (hsends ▸ hsend)
      have hdest := (TxEntry.isCast_iff e).1 hcast
      exact ⟨q, hq, hsame hqsend, hother (by omega)⟩
    | false =>
      rw [if_neg (by simp [hcast])] at hsends
      have hmodified := sends_modify (j := e.dest) (g := sendConcluded o refresh) hp
      rw [← hsends] at hmodified
      obtain ⟨q, hq, hqsend⟩ := exists_peer_of_sends hmodified
      refine ⟨q, hq, ?_⟩
      split at hqsend
      · exact sends_of_conclusion hcompq ‹_› hcause hqsend
      · exact ⟨hsame hqsend, hother fun _ => ‹_›⟩

end

/-- Settles O57: the queues by the rows at which they move, the send states by the one event of each command. -/
theorem queuesMoveOnlyAtTheirEvents : Obligations.QueuesMoveOnlyAtTheirEvents := by
  refine ⟨fun c s t e => ⟨exec_resets_queues e, ?post, ?reap, exec_budget_moves e⟩,
    fun c s t e hreset => ⟨?characters, ?take, exec_receive_moves e hreset⟩, fun c s t k p e hreset hflush hp => ?peer⟩
  case post =>
    intro hok
    obtain ⟨⟨dt, rfl⟩, -⟩ := id hok
    rcases exec_post_cases e with ⟨-, dest, tag, len, payload, rfl⟩ | ⟨hnot, -⟩
    · exact ⟨_, rfl, rfl⟩
    · exact absurd hok hnot
  case reap =>
    intro hok
    obtain ⟨⟨dt, rfl⟩, -⟩ := id hok
    rcases exec_reap_cases e with ⟨-, rfl⟩ | ⟨hnot, -⟩
    · exact ⟨rfl, rfl⟩
    · exact absurd hok hnot
  case characters =>
    rintro a b rfl
    rcases exec_characterDelivered_records e with h | ⟨f, hends, ho, hs, hkind, r, hsource, hlength, hcls, h⟩
    · exact .inl h
    · exact .inr ⟨f, r, hends, ho, hs, hkind, hsource, hlength, hcls, h⟩
  case take =>
    intro hok
    obtain ⟨⟨dt, rfl⟩, -⟩ := id hok
    rcases exec_take_cases e with ⟨-, rfl⟩ | ⟨hnot, -⟩
    · exact (s.advance dt).removeHeadRecord_rxq
    · exact absurd hok hnot
  case peer =>
    obtain ⟨q, hq, hmoves, hclaims⟩ := (exec_sendEvent e hreset hflush).peer hp
    refine ⟨q, hq, hmoves, hclaims, fun hretried => ?_⟩
    have hrefreshed := sends_modify (j := k) (g := sendRefreshed) hp
    rw [← outOfStepRetried_sends e hretried, if_pos rfl] at hrefreshed
    obtain ⟨q', hq', hsend⟩ := exists_peer_of_sends hrefreshed
    obtain rfl : q = q' := Option.some.inj (hq.symm.trans hq')
    exact PeerEntry.send_eq_iff.1 hsend

end Sys2Proof.Machine
end

section
/-! The message pool (chapter 7): what a command can do to the blocks and their holders, said once as a run of pool
moves; the blocks accounted for; and the contents of the blocks. -/

namespace Sys2Proof.Machine

open Sys2Proof

/-! ## The holders of the pool, and those who claim to hold (R129, R103, R140) -/

/-- What a transmit entry or a receive record says of its blocks: its reference, the blocks, and the length they hold. -/
structure Holding where
  ref : Nat
  blocks : List Nat
  length : Nat

def TxEntry.holding (e : TxEntry) : Holding := { ref := e.ref, blocks := e.blocks, length := e.length }

def ReceiveRecord.holding (r : ReceiveRecord) : Holding := { ref := r.ref, blocks := r.blocks, length := r.length }

/-- The holdings without the first of a reference. -/
def withoutRef (xs : List Holding) (ref : Nat) : List Holding := xs.eraseP fun x => x.ref == ref

/-- What the rules of the pool read and move: the holdings of the transmit queue and of the receive queue, the pool, and
the supply of references. -/
structure PoolView where
  sent : List Holding
  received : List Holding
  pool : Pool
  nextRef : Nat

def State.poolView (s : State) : PoolView :=
  { sent := s.txq.map TxEntry.holding, received := s.rxq.records.map ReceiveRecord.holding, pool := s.pool,
    nextRef := s.nextRef }

/-- An entry of a length appended with its blocks claimed (R105). -/
def PoolView.posted (v : PoolView) (len : Nat) (payload : List Byte) : PoolView :=
  let blocks := v.pool.grant (Config.blocksFor len)
  { sent := v.sent ++ [{ ref := v.nextRef, blocks := blocks, length := len }], received := v.received,
    pool := v.pool.claim blocks (.transmit v.nextRef) payload, nextRef := v.nextRef + 1 }

/-- A record of a length appended with its blocks claimed (R132). -/
def PoolView.recorded (v : PoolView) (len : Nat) (payload : List Byte) : PoolView :=
  let blocks := v.pool.grant (Config.blocksFor len)
  { sent := v.sent, received := v.received ++ [{ ref := v.nextRef, blocks := blocks, length := len }],
    pool := v.pool.claim blocks (.receive v.nextRef) payload, nextRef := v.nextRef + 1 }

/-- An entry that leaves releases its blocks (R133). -/
def PoolView.concluded (v : PoolView) (ref : Nat) : PoolView :=
  { v with sent := withoutRef v.sent ref, pool := v.pool.release (.transmit ref) }

/-- A record that leaves releases its blocks (R134). -/
def PoolView.taken (v : PoolView) (ref : Nat) : PoolView :=
  { v with received := withoutRef v.received ref, pool := v.pool.release (.receive ref) }

/-- A reset empties both queues and frees every block (R139). -/
def PoolView.reset (v : PoolView) : PoolView :=
  { sent := [], received := [], pool := v.pool.resetHolders, nextRef := 0 }

/-- The changes that the command `c` makes to the pool and its holders. -/
inductive PoolMove (c : Instr) : PoolView → PoolView → Prop where
  | conclude (v : PoolView) (ref : Nat) : PoolMove c v (v.concluded ref)
  | post (v : PoolView) (dt len : Nat) (payload : List Byte) (hc : c = .post dt .close)
      (hroom : Config.blocksFor len ≤ v.pool.freeCount) : PoolMove c v (v.posted len payload)
  | record (v : PoolView) (a b : Bool) (len : Nat) (payload : List Byte) (hc : c = .characterDelivered a b)
      (hroom : Config.blocksFor len ≤ v.pool.freeCount) : PoolMove c v (v.recorded len payload)
  | take (v : PoolView) (dt ref : Nat) (hc : c = .take dt .close) : PoolMove c v (v.taken ref)
  | reset (v : PoolView) (hc : resetRow c) : PoolMove c v v.reset

/-- A run of pool moves of the command `c`. -/
abbrev PoolMoves (c : Instr) : PoolView → PoolView → Prop := Relation.ReflTransGen (PoolMove c)

/-! ## Every command is a run of pool moves -/

/-- A change of an entry that leaves its reference, blocks and length leaves the holdings. -/
theorem updateEntry_holdings {f : TxEntry → TxEntry} (hf : ∀ x, (f x).holding = x.holding) (q : List TxEntry)
    (ref : Nat) : (updateEntry q ref f).map TxEntry.holding = q.map TxEntry.holding := by
  induction q with
  | nil => rfl
  | cons y ys ih =>
    rw [updateEntry_cons]
    split
    · simp [hf]
    · simp [ih]

theorem removeEntry_holdings (q : List TxEntry) (ref : Nat) :
    (removeEntry q ref).map TxEntry.holding = withoutRef (q.map TxEntry.holding) ref := by
  rw [withoutRef, List.eraseP_map]
  rfl

theorem State.setTxq_updateEntry_poolView (s : State) (f : TxEntry → TxEntry) (hf : ∀ x, (f x).holding = x.holding)
    (ref : Nat) : (s.setTxq (updateEntry s.txq ref f)).poolView = s.poolView :=
  congrArg (fun q => { s.poolView with sent := q }) (updateEntry_holdings hf s.txq ref)

theorem State.concludedAs_poolView (s : State) (e : TxEntry) (o : TxOutcome) (refresh : Bool) :
    (s.concludedAs e o refresh).poolView = s.poolView.concluded e.ref := by
  rw [State.poolView, State.concludedAs, removeEntry_holdings]
  rfl

theorem State.appendEntry_poolView (s : State) (dest : Nat) (tag : Byte) (len : Nat) (payload : List Byte) :
    (s.appendEntry dest tag len payload).poolView = s.poolView.posted len payload := by
  simp [State.poolView, State.appendEntry, State.takeRef, PoolView.posted, TxEntry.holding]

theorem State.appendRecord_poolView (s : State) (f : Frame) (k : RecordClass) :
    (s.appendRecord f k).poolView = s.poolView.recorded f.length f.payload := by
  simp [State.poolView, State.appendRecord, State.takeRef, PoolView.recorded, ReceiveRecord.holding]

theorem State.removeHeadRecord_poolView {s : State} {r : ReceiveRecord} {rest : List ReceiveRecord}
    (h : s.rxq.records = r :: rest) : s.removeHeadRecord.poolView = s.poolView.taken r.ref := by
  simp [State.poolView, State.removeHeadRecord, PoolView.taken, withoutRef, h, ReceiveRecord.holding]

theorem State.restart_poolView (s : State) : s.restart.poolView = s.poolView.reset := by
  unfold State.restart State.restartLine
  split <;> rfl

section
variable {c : Instr}

theorem PoolMoves.still {v w : PoolView} (h : w = v) : PoolMoves c v w := h ▸ .refl

theorem PoolMoves.concludedAs (s : State) (e : TxEntry) (o : TxOutcome) (refresh : Bool) :
    PoolMoves c s.poolView (s.concludedAs e o refresh).poolView := by
  rw [State.concludedAs_poolView]
  exact .single (.conclude _ _)

theorem PoolMoves.concludes (s : State) (ref : Nat) (o : TxOutcome) (refresh : Bool) :
    PoolMoves c s.poolView (s.conclude ref o refresh).poolView := by
  cases h : findEntry s.txq ref with
  | none => exact .still (by rw [State.conclude_missing h])
  | some e =>
    rw [State.conclude_concludedAs h]
    exact .concludedAs s e o refresh

theorem PoolMoves.concludesCancelled (s : State) (e : TxEntry) :
    PoolMoves c s.poolView (s.concludeCancelled e).poolView := by
  unfold State.concludeCancelled
  split <;> exact .concludes ..

theorem PoolMoves.returns (s : State) (ref : Nat) : PoolMoves c s.poolView (s.returnEntry ref).poolView := by
  rcases s.returnEntry_cases ref with heq | ⟨e, -, ⟨-, heq⟩ | ⟨-, heq⟩⟩ <;> rw [heq]
  · exact .concludesCancelled s e
  · exact .still (s.setTxq_updateEntry_poolView TxEntry.goesBack (fun _ => rfl) ref)

theorem PoolMoves.result (s : State) (ref : Nat) (r : WatchResult) :
    PoolMoves c s.poolView (s.applyWatchResult ref r).poolView := by
  rcases s.applyWatchResult_cases ref r with ⟨heq, -⟩ | ⟨e, -, -, ⟨o, refresh, -, heq⟩ | ⟨refresh, -, heq⟩⟩ <;>
    rw [heq]
  · exact .concludedAs s _ o refresh
  · exact .still (s.setTxq_updateEntry_poolView (TxEntry.outstandingAt _ _) (fun _ => rfl) e.ref)

theorem PoolMoves.cancel (s : State) (e : TxEntry) : PoolMoves c s.poolView (s.cancelEntry e).poolView := by
  unfold State.cancelEntry
  split
  · exact .still (s.setTxq_updateEntry_poolView TxEntry.defer (fun _ => rfl) e.ref)
  · exact .concludesCancelled s e

theorem PoolMoves.cancelAll (es : List TxEntry) (s : State) :
    PoolMoves c s.poolView (es.foldl State.cancelEntry s).poolView := by
  induction es generalizing s with
  | nil => exact .refl
  | cons e es ih => exact (PoolMoves.cancel s e).trans (ih _)

theorem PoolMoves.takesHead (s : State) {dt : Nat} (hc : c = .take dt .close) :
    PoolMoves c s.poolView s.removeHeadRecord.poolView := by
  cases h : s.rxq.records with
  | nil => exact .still (by simp only [State.removeHeadRecord, h])
  | cons r rest =>
    rw [State.removeHeadRecord_poolView h]
    exact .single (.take _ dt r.ref hc)

/-- A POST that passes its checks has room for its blocks, beyond the receive reserve (R104, R131). -/
theorem State.judgePost_room {s : State} {dest len : Nat} (h : s.judgePost dest len = .ok) :
    Config.blocksFor len ≤ s.pool.freeCount := by
  unfold State.judgePost at h
  split at h
  · cases h
  · split at h
    · cases h
    · split at h
      · cases h
      · omega

/-- Each move is a run of pool moves. -/
theorem Move.poolMoves {s t : State} (m : Move c s t) : PoolMoves c s.poolView t.poolView := by
  have updated (f : TxEntry → TxEntry) (hf : ∀ x, (f x).holding = x.holding) (ref : Nat) :
      PoolMoves c s.poolView (s.setTxq (updateEntry s.txq ref f)).poolView :=
    .still (s.setTxq_updateEntry_poolView f hf ref)
  cases m with
  | side e => exact .still (by rw [e]; rfl)
  | rotate r _ => exact .refl
  | watch w _ => exact .refl
  | selectCast e _ _ => exact updated TxEntry.select (fun _ => rfl) e.ref
  | selectData e q _ _ => exact updated TxEntry.select (fun _ => rfl) e.ref
  | refused e _ => exact (updated TxEntry.keptState (fun _ => rfl) e.ref).trans (PoolMoves.returns _ e.ref)
  | counted ref => exact updated TxEntry.countAttempt (fun _ => rfl) ref
  | sent ref => exact .concludes s ref .sent false
  | returned ref => exact .returns s ref
  | result w r _ => exact .result (s.setWatch .shut) w.entry r
  | cancel tag =>
    unfold State.cancelTag
    split
    · exact .refl
    · exact .cancel s _
  | flush => exact .cancelAll s.txq s
  | post dt dest tag len payload hc hj =>
    rw [State.appendEntry_poolView]
    exact .single (.post _ dt len payload hc (State.judgePost_room hj))
  | record a b f k hc hr =>
    obtain ⟨-, hroom⟩ := of_decide_eq_true hr
    rw [State.appendRecord_poolView]
    exact .single (.record _ a b f.length f.payload hc hroom)
  | accept a b k seq fresh _ => exact .refl
  | castLost a b _ => exact .refl
  | take dt hc => exact .takesHead s hc
  | reap dt _ => exact .refl
  | pinReset dt hc => exact .single (.reset _ (.inl ⟨dt, hc⟩))
  | release dt a b r l hc => exact .single (.reset _ (.inr (.inl ⟨dt, a, b, r, l, hc⟩)))
  | restart dt hc =>
    rw [State.restart_poolView]
    exact .single (.reset _ (.inr (.inr ⟨dt, hc⟩)))

/-- A property of the pool's view that every pool move keeps is kept by a run of them. -/
theorem PoolMoves.keeps {P : PoolView → Prop} (hp : ∀ v w, PoolMove c v w → P v → P w) {v w : PoolView}
    (m : PoolMoves c v w) (h : P v) : P w := by
  induction m with
  | refl => exact h
  | tail _ m ih => exact hp _ _ m ih

/-- Every command is a run of its pool moves. -/
theorem exec_poolMoves {s t : State} (e : exec c s = .next t) : PoolMoves c s.poolView t.poolView :=
  Moves.keeps (P := fun u => PoolMoves c s.poolView u.poolView) (fun _ _ m h => h.trans m.poolMoves) (exec_moves e)
    .refl

end

/-- A property of the pool's view that every pool move keeps is kept by every step. -/
theorem step_keeps_pool {P : PoolView → Prop} (hp : ∀ c v w, PoolMove c v w → P v → P w) {s t : State}
    (h : P s.poolView) (e : step s = .next t) : P t.poolView :=
  step_keeps (P := fun u => P u.poolView) (fun c _ _ m hu => m.poolMoves.keeps (hp c) hu) h e

/-! ## The holders after a claim, a release and a reset (R129, R130, R139) -/

section
variable {p : Pool} {n b : Nat} {h k : Holder} {payload : List Byte}

/-- A block granted is the claimant's, and every other block has the holder it had. -/
theorem Pool.claim_holder :
    (p.claim (p.grant n) h payload).holders[b]? = if b ∈ p.grant n then some h else p.holders[b]? := by
  simp only [Pool.claim, List.getElem?_mapIdx]
  by_cases hb : b ∈ p.grant n
  · obtain ⟨-, hfree⟩ := Pool.mem_grant hb
    simp [hb, hfree]
  · simp [hb]

theorem Pool.claim_holder_other (hk : k ≠ h) (hfree : k ≠ .free) :
    (p.claim (p.grant n) h payload).holders[b]? = some k ↔ p.holders[b]? = some k := by
  rw [Pool.claim_holder]
  split
  · rename_i hb
    obtain ⟨-, hwas⟩ := Pool.mem_grant hb
    simp [hwas, hk.symm, hfree.symm]
  · rfl

theorem Pool.release_holder :
    (p.release h).holders[b]? = if p.holders[b]? = some h then some .free else p.holders[b]? := by
  simp only [Pool.release, List.getElem?_map]
  cases p.holders[b]? with
  | none => rfl
  | some old => by_cases ho : old = h <;> simp [ho]

theorem Pool.release_holder_other (hk : k ≠ h) (hfree : k ≠ .free) :
    (p.release h).holders[b]? = some k ↔ p.holders[b]? = some k := by
  rw [Pool.release_holder]
  split
  · rename_i hb
    simp [hb, hk.symm, hfree.symm]
  · rfl

/-- A claim writes no byte of a block that some entry or record holds (R130). -/
theorem Pool.claim_read_held (hb : p.holders[b]? = some k) (hk : k ≠ .free) {j : Nat} (hj : j < 16) :
    readCell (p.claim (p.grant n) h payload).cells (16 * b + j) = readCell p.cells (16 * b + j) := by
  refine readCell_fillBlocks_outside _ _ ?_
  rw [show (16 * b + j) / 16 = b by omega]
  intro hgranted
  obtain ⟨-, hfree⟩ := Pool.mem_grant hgranted
  rw [hb, Option.some_inj] at hfree
  exact hk hfree

end

/-! ## The blocks of one holder -/

section
variable {p q : Pool} {h k : Holder}

theorem Pool.heldBy_congr (hpq : ∀ b : Nat, q.holders[b]? = some h ↔ p.holders[b]? = some h) :
    q.heldBy h = p.heldBy h :=
  List.filter_congr fun b _ => by rw [Bool.eq_iff_iff, beq_iff_eq, beq_iff_eq, hpq]

/-- A claimant that held nothing holds exactly the blocks granted. -/
theorem Pool.heldBy_claim (hnew : h ∉ p.holders) (n : Nat) (payload : List Byte) :
    (p.claim (p.grant n) h payload).heldBy h = p.grant n := by
  have hiff (b : Nat) : (p.claim (p.grant n) h payload).holders[b]? = some h ↔ b ∈ p.grant n := by
    rw [Pool.claim_holder]
    split
    · simpa
    · rename_i hb
      exact ⟨fun hold => absurd (List.mem_of_getElem? hold) hnew, fun h => absurd h hb⟩
  have hfree {b : Nat} (hb : b ∈ p.grant n) : p.holders.getD b (.transmit 0) = .free := by
    obtain ⟨-, hfree⟩ := Pool.mem_grant hb
    simp [List.getD_eq_getElem?_getD, hfree]
  calc (p.claim (p.grant n) h payload).heldBy h
      = (List.range 64).filter (p.grant n).elem :=
        List.filter_congr fun b _ => by rw [Bool.eq_iff_iff, beq_iff_eq, hiff, List.elem_iff]
    _ = p.freeBlocks.filter (p.grant n).elem := by
        rw [Pool.freeBlocks, List.filter_filter]
        refine List.filter_congr fun b _ => ?_
        by_cases hb : b ∈ p.grant n
        · rw [hfree hb]
          simp [hb]
        · simp [hb]
    _ = p.grant n := p.freeBlocks_nodup.take_eq_filter_mem.symm

/-- A holder holds as many blocks as the pool names it. -/
theorem Pool.heldBy_length (hlen : p.holders.length = 64) (h : Holder) : (p.heldBy h).length = p.holders.count h := by
  have hall : (List.range 64).map (fun b => p.holders[b]?) = p.holders.map some := by
    refine List.ext_getElem? fun b => ?_
    by_cases hb : b < 64
    · simp [hb, hlen]
    · simp [hb, hlen]
  rw [← List.count_map_of_injective p.holders some (Option.some_injective _) h, ← hall, List.count_eq_countP,
    List.countP_map, List.countP_eq_length_filter]
  rfl

theorem Pool.freeCount_eq (hlen : p.holders.length = 64) : p.freeCount = p.holders.count .free := by
  rw [← Pool.heldBy_length hlen]
  refine congrArg List.length (List.filter_congr fun b _ => ?_)
  rw [List.getD_eq_getElem?_getD]
  cases p.holders[b]? with
  | none => simp
  | some old => by_cases ho : old = .free <;> simp [ho]

end

/-! ## The law of one kind of holder -/

/-- The holdings of one kind of holder (R129, R103, R140): distinct references below the supply, each with exactly the
blocks that name it and as many as its length needs, and no block that names another. -/
structure HoldersLaw (kind : Nat → Holder) (xs : List Holding) (supply : Nat) (p : Pool) : Prop where
  nodup : (xs.map (·.ref)).Nodup
  own : ∀ x ∈ xs, x.ref < supply ∧ x.blocks = p.heldBy (kind x.ref) ∧ x.blocks.length = Config.blocksFor x.length
  named : ∀ ref, kind ref ∈ p.holders → ∃ x ∈ xs, x.ref = ref

/-- The law of the pool on its view: 64 blocks, and the law of either kind of holder. -/
structure PoolView.Lawful (v : PoolView) : Prop where
  blocks : v.pool.holders.length = 64
  sent : HoldersLaw .transmit v.sent v.nextRef v.pool
  received : HoldersLaw .receive v.received v.nextRef v.pool

/-- The law of the holdings that a queue's elements give. -/
theorem holdersLaw_map {α : Type} {kind : Nat → Holder} {supply : Nat} {p : Pool} (f : α → Holding) (q : List α) :
    HoldersLaw kind (q.map f) supply p ↔
      (q.map fun a => (f a).ref).Nodup ∧
      (∀ a ∈ q, (f a).ref < supply ∧ (f a).blocks = p.heldBy (kind (f a).ref) ∧
        (f a).blocks.length = Config.blocksFor (f a).length) ∧
      ∀ ref, kind ref ∈ p.holders → ∃ a ∈ q, (f a).ref = ref := by
  constructor
  · rintro ⟨hnodup, hown, hnamed⟩
    exact ⟨by simpa [Function.comp_def] using hnodup, by simpa using hown, by simpa using hnamed⟩
  · rintro ⟨hnodup, hown, hnamed⟩
    exact ⟨by simpa [Function.comp_def] using hnodup, by simpa using hown, by simpa using hnamed⟩

theorem State.poolLaw_iff (s : State) : s.poolLaw ↔ s.poolView.Lawful := by
  constructor
  · rintro ⟨hblocks, hsent, hreceived, hentries, hrecords, htransmit, hreceive⟩
    exact ⟨hblocks, (holdersLaw_map TxEntry.holding _).2 ⟨hsent, hentries, htransmit⟩,
      (holdersLaw_map ReceiveRecord.holding _).2 ⟨hreceived, hrecords, hreceive⟩⟩
  · rintro ⟨hblocks, lsent, lreceived⟩
    obtain ⟨hsent, hentries, htransmit⟩ := (holdersLaw_map TxEntry.holding _).1 lsent
    obtain ⟨hreceived, hrecords, hreceive⟩ := (holdersLaw_map ReceiveRecord.holding _).1 lreceived
    exact ⟨hblocks, hsent, hreceived, hentries, hrecords, htransmit, hreceive⟩

/-- With distinct references the holdings left are those of the other references. -/
theorem mem_withoutRef_iff {xs : List Holding} (hnodup : (xs.map (·.ref)).Nodup) {ref : Nat} {x : Holding} :
    x ∈ withoutRef xs ref ↔ x ∈ xs ∧ x.ref ≠ ref := by
  constructor
  · intro hx
    have hmem : x ∈ xs := List.eraseP_sublist.mem hx
    refine ⟨hmem, fun href => ?_⟩
    obtain ⟨y, before, after, -, hy, rfl, hleft⟩ :=
      List.exists_of_eraseP (p := fun x => x.ref == ref) hmem (by simp [href])
    rw [withoutRef, hleft] at hx
    rw [List.map_append, List.map_cons, List.nodup_middle, List.nodup_cons, ← List.map_append] at hnodup
    obtain ⟨hapart, -⟩ := hnodup
    refine hapart (List.mem_map.2 ⟨x, hx, href.trans ?_⟩)
    exact (beq_iff_eq.1 hy).symm
  · rintro ⟨hmem, hne⟩
    exact (List.mem_eraseP_of_neg (by simpa using hne)).2 hmem

namespace HoldersLaw

variable {kind : Nat → Holder} {xs : List Holding} {supply : Nat} {p q : Pool}

/-- A change of the pool that leaves this kind's blocks. -/
theorem of_holders (l : HoldersLaw kind xs supply p) {supply' : Nat} (hs : supply ≤ supply')
    (h : ∀ b ref : Nat, q.holders[b]? = some (kind ref) ↔ p.holders[b]? = some (kind ref)) :
    HoldersLaw kind xs supply' q := by
  refine ⟨l.nodup, fun x hx => ?_, fun ref href => ?_⟩
  · obtain ⟨hbelow, hblocks, hlength⟩ := l.own x hx
    exact ⟨hbelow.trans_le hs, hblocks.trans (Pool.heldBy_congr fun b => h b x.ref).symm, hlength⟩
  · obtain ⟨b, hb⟩ := List.mem_iff_getElem?.1 href
    exact l.named ref (List.mem_of_getElem? ((h b ref).1 hb))

/-- A holder of this kind with a new reference claims the blocks that its length needs (R129, R130). -/
theorem claim (l : HoldersLaw kind xs supply p) (hinj : kind.Injective) (hfree : ∀ ref, kind ref ≠ .free)
    {len : Nat} (hroom : Config.blocksFor len ≤ p.freeCount) (payload : List Byte) :
    HoldersLaw kind (xs ++ [{ ref := supply, blocks := p.grant (Config.blocksFor len), length := len }])
      (supply + 1) (p.claim (p.grant (Config.blocksFor len)) (kind supply) payload) := by
  have hfresh : ∀ x ∈ xs, x.ref ≠ supply := fun x hx => by
    obtain ⟨hbelow, -⟩ := l.own x hx
    exact Nat.ne_of_lt hbelow
  have hnew : kind supply ∉ p.holders := fun hmem => by
    obtain ⟨x, hx, href⟩ := l.named supply hmem
    exact hfresh x hx href
  have hother {ref : Nat} (hne : ref ≠ supply) (b : Nat) :
      (p.claim (p.grant (Config.blocksFor len)) (kind supply) payload).holders[b]? = some (kind ref) ↔
        p.holders[b]? = some (kind ref) := Pool.claim_holder_other (hinj.ne hne) (hfree ref)
  refine ⟨?_, fun x hx => ?_, fun ref href => ?_⟩
  · rw [List.map_append, List.map_singleton, List.nodup_append]
    refine ⟨l.nodup, List.nodup_singleton _, fun a ha b hb => ?_⟩
    obtain ⟨x, hx, rfl⟩ := List.mem_map.1 ha
    exact List.mem_singleton.1 hb ▸ hfresh x hx
  · rcases List.mem_append.1 hx with hold | hlast
    · obtain ⟨hbelow, hblocks, hlength⟩ := l.own x hold
      exact ⟨hbelow.trans (Nat.lt_succ_self _),
        hblocks.trans (Pool.heldBy_congr (hother (hfresh x hold))).symm, hlength⟩
    · rw [List.mem_singleton.1 hlast]
      exact ⟨Nat.lt_succ_self _, (Pool.heldBy_claim hnew _ payload).symm, Pool.grant_length p hroom⟩
  · by_cases hne : ref = supply
    · exact ⟨_, List.mem_append_right _ (List.mem_singleton_self _), hne.symm⟩
    · obtain ⟨b, hb⟩ := List.mem_iff_getElem?.1 href
      obtain ⟨x, hx, hxref⟩ := l.named ref (List.mem_of_getElem? ((hother hne b).1 hb))
      exact ⟨x, List.mem_append_left _ hx, hxref⟩

/-- A holder of this kind leaves and its blocks become FREE (R129, R133, R134). -/
theorem release (l : HoldersLaw kind xs supply p) (hinj : kind.Injective) (hfree : ∀ ref, kind ref ≠ .free)
    (gone : Nat) : HoldersLaw kind (withoutRef xs gone) supply (p.release (kind gone)) := by
  have hother {ref : Nat} (hne : ref ≠ gone) (b : Nat) :
      (p.release (kind gone)).holders[b]? = some (kind ref) ↔ p.holders[b]? = some (kind ref) :=
    Pool.release_holder_other (hinj.ne hne) (hfree ref)
  refine ⟨l.nodup.sublist (List.eraseP_sublist.map _), fun x hx => ?_, fun ref href => ?_⟩
  · obtain ⟨hold, hne⟩ := (mem_withoutRef_iff l.nodup).1 hx
    obtain ⟨hbelow, hblocks, hlength⟩ := l.own x hold
    exact ⟨hbelow, hblocks.trans (Pool.heldBy_congr (hother hne)).symm, hlength⟩
  · obtain ⟨b, hb⟩ := List.mem_iff_getElem?.1 href
    have hne : ref ≠ gone := by
      rintro rfl
      rw [Pool.release_holder] at hb
      split at hb
      · exact hfree ref (Option.some.inj hb).symm
      · contradiction
    obtain ⟨x, hx, hxref⟩ := l.named ref (List.mem_of_getElem? ((hother hne b).1 hb))
    exact ⟨x, (mem_withoutRef_iff l.nodup).2 ⟨hx, hxref ▸ hne⟩, hxref⟩

/-- After a reset no block names a holder (R139). -/
theorem reset (hfree : ∀ ref, kind ref ≠ .free) : HoldersLaw kind [] 0 p.resetHolders :=
  ⟨List.nodup_nil, nofun, fun ref href => absurd (List.eq_of_mem_replicate href) (hfree ref)⟩

theorem kinds_nodup (l : HoldersLaw kind xs supply p) (hinj : kind.Injective) :
    (xs.map fun x => kind x.ref).Nodup := by
  simpa only [List.map_map, Function.comp_def] using l.nodup.map hinj

theorem block_counts (l : HoldersLaw kind xs supply p) (hlen : p.holders.length = 64) :
    xs.map (·.blocks.length) = xs.map fun x => p.holders.count (kind x.ref) :=
  List.map_congr_left fun x hx => by
    obtain ⟨-, hblocks, -⟩ := l.own x hx
    rw [hblocks, Pool.heldBy_length hlen]

end HoldersLaw

/-! ## Every pool move keeps the law of the pool -/

theorem Holder.transmit_injective : Function.Injective Holder.transmit := fun _ _ => Holder.transmit.inj

theorem Holder.receive_injective : Function.Injective Holder.receive := fun _ _ => Holder.receive.inj

theorem PoolMove.lawful {c : Instr} {v w : PoolView} (m : PoolMove c v w) (l : v.Lawful) : w.Lawful := by
  obtain ⟨hblocks, hsent, hreceived⟩ := l
  cases m with
  | conclude ref =>
    exact ⟨(Pool.release_length ..).trans hblocks, hsent.release Holder.transmit_injective nofun ref,
      hreceived.of_holders le_rfl fun _ _ => Pool.release_holder_other nofun nofun⟩
  | post dt len payload _ hroom =>
    exact ⟨(Pool.claim_length ..).trans hblocks, hsent.claim Holder.transmit_injective nofun hroom payload,
      hreceived.of_holders (Nat.le_succ _) fun _ _ => Pool.claim_holder_other nofun nofun⟩
  | record a b len payload _ hroom =>
    exact ⟨(Pool.claim_length ..).trans hblocks,
      hsent.of_holders (Nat.le_succ _) fun _ _ => Pool.claim_holder_other nofun nofun,
      hreceived.claim Holder.receive_injective nofun hroom payload⟩
  | take dt ref _ =>
    exact ⟨(Pool.release_length ..).trans hblocks,
      hsent.of_holders le_rfl fun _ _ => Pool.release_holder_other nofun nofun,
      hreceived.release Holder.receive_injective nofun ref⟩
  | reset _ => exact ⟨List.length_replicate, .reset nofun, .reset nofun⟩

/-! ## The 64 blocks (R129) -/

/-- The holders that the law knows: FREE, and the entries and the records by their references. -/
def PoolView.holderList (v : PoolView) : List Holder :=
  .free :: (v.sent.map (fun x => .transmit x.ref) ++ v.received.map fun x => .receive x.ref)

namespace PoolView.Lawful

variable {v : PoolView} (l : v.Lawful)
include l

theorem holderList_nodup : v.holderList.Nodup := by
  refine List.nodup_cons.2 ⟨by simp, List.nodup_append.2 ⟨l.sent.kinds_nodup Holder.transmit_injective,
    l.received.kinds_nodup Holder.receive_injective, fun a ha b hb => ?_⟩⟩
  obtain ⟨x, -, rfl⟩ := List.mem_map.1 ha
  obtain ⟨y, -, rfl⟩ := List.mem_map.1 hb
  nofun

theorem mem_holderList {h : Holder} (hh : h ∈ v.pool.holders) : h ∈ v.holderList := by
  cases h with
  | free => exact List.mem_cons_self
  | transmit ref =>
    obtain ⟨x, hx, rfl⟩ := l.sent.named ref hh
    exact List.mem_cons_of_mem _ (List.mem_append_left _ (List.mem_map_of_mem hx))
  | receive ref =>
    obtain ⟨x, hx, rfl⟩ := l.received.named ref hh
    exact List.mem_cons_of_mem _ (List.mem_append_right _ (List.mem_map_of_mem hx))

/-- Each block is counted once, with its one holder. -/
theorem counts_sum : (v.holderList.map v.pool.holders.count).sum = 64 := by
  have hcounted : ∑ h ∈ v.holderList.toFinset, v.pool.holders.count h = v.pool.holders.length := by
    simpa using Multiset.sum_count_eq_card (m := (v.pool.holders : Multiset Holder)) fun h hh =>
      List.mem_toFinset.2 (l.mem_holderList hh)
  rw [← List.sum_toFinset _ l.holderList_nodup, hcounted, l.blocks]

theorem accounted :
    v.pool.freeCount + (v.sent.map (·.blocks.length)).sum + (v.received.map (·.blocks.length)).sum = 64 := by
  have hsum := l.counts_sum
  simp only [PoolView.holderList, List.map_cons, List.map_append, List.map_map, Function.comp_def, List.sum_cons,
    List.sum_append] at hsum
  rw [l.sent.block_counts l.blocks, l.received.block_counts l.blocks, Pool.freeCount_eq l.blocks, Nat.add_assoc]
  exact hsum

end PoolView.Lawful

/-- Settles O53: every step is a run of pool moves; each keeps the law of the pool, and under it each block is counted
once. -/
theorem everyStepKeepsTheBlocksAccounted : Obligations.EveryStepKeepsTheBlocksAccounted := by
  intro s t l e
  have lawful : t.poolView.Lawful := step_keeps_pool (fun _ _ _ m => m.lawful) (s.poolLaw_iff.1 l) e
  have haccounted := lawful.accounted
  simp only [State.poolView, List.map_map, Function.comp_def] at haccounted
  exact ⟨t.poolLaw_iff.2 lawful, haccounted⟩

/-! ## The cells in canonical form (assumption log 5) -/

theorem PoolMove.cells_canonical {c : Instr} {v w : PoolView} (m : PoolMove c v w) (h : cellsWf v.pool.cells) :
    cellsWf w.pool.cells := by
  cases m with
  | conclude ref => exact h
  | post dt len payload _ _ => exact Pool.claim_wf _ _ payload h
  | record a b len payload _ _ => exact Pool.claim_wf _ _ payload h
  | take dt ref _ => exact h
  | reset _ => exact h

/-- Settles O55: a claim fills its blocks cell by cell in canonical form, and every other pool move leaves the cells. -/
theorem everyStepKeepsTheCellsCanonical : Obligations.EveryStepKeepsTheCellsCanonical := fun _ _ l e =>
  step_keeps_pool (P := fun v => cellsWf v.pool.cells) (fun _ _ _ m => m.cells_canonical) l e

/-! ## The contents of the blocks (R130) -/

section
variable {c : Instr} {s t : State}

/-- Only a POST's acceptance and the record of a frame end write to the pool. -/
theorem PoolMove.cells_kept_or_filled {v w : PoolView} (m : PoolMove c v w) :
    w.pool.cells = v.pool.cells ∨ (∃ dt, c = .post dt .close) ∨ ∃ a b, c = .characterDelivered a b := by
  cases m with
  | conclude ref => exact .inl rfl
  | post dt len payload hc _ => exact .inr (.inl ⟨dt, hc⟩)
  | record a b len payload hc _ => exact .inr (.inr ⟨a, b, hc⟩)
  | take dt ref _ => exact .inl rfl
  | reset _ => exact .inl rfl

theorem exec_cells (e : exec c s = .next t) (hcharacter : ∀ a b, c ≠ .characterDelivered a b)
    (hpost : ∀ dt, c ≠ .post dt .close) : t.pool.cells = s.pool.cells := by
  refine (exec_poolMoves e).keeps (P := fun v => v.pool.cells = s.pool.cells) (fun v w m hv => ?_) rfl
  rcases m.cells_kept_or_filled with heq | ⟨dt, rfl⟩ | ⟨a, b, rfl⟩
  · exact heq.trans hv
  · exact absurd rfl (hpost dt)
  · exact absurd rfl (hcharacter a b)

/-- What a row of a POST does to the pool: nothing, or a claim of the blocks granted. -/
theorem exec_post_pool {dt : Nat} {p : HostPhase} (e : exec (.post dt p) s = .next t) :
    t.pool = s.pool ∨ ∃ n h payload, t.pool = s.pool.claim (s.pool.grant n) h payload := by
  rcases exec_post_cases e with ⟨-, dest, tag, len, payload, rfl⟩ | ⟨-, w, rfl⟩
  · exact .inr ⟨Config.blocksFor len, .transmit s.nextRef, payload, rfl⟩
  · exact .inl rfl

end

/-- Since the pool `p` block `b` keeps its holder and its bytes, or an entry that held it has left it for good. -/
def Pool.KeptOrLeft (b : Nat) (p q : Pool) : Prop :=
  (q.holders[b]? = p.holders[b]? ∧ ∀ j < 16, readCell q.cells (16 * b + j) = readCell p.cells (16 * b + j)) ∨
    (∃ ref, p.holders[b]? = some (.transmit ref)) ∧ ∀ ref, q.holders[b]? ≠ some (.transmit ref)

namespace Pool.KeptOrLeft

variable {b : Nat} {p q : Pool} {k : Holder}

/-- A block of an entry that is released is left, and every other is kept. -/
theorem release (h : KeptOrLeft b p q) (ref : Nat) : KeptOrLeft b p (q.release (.transmit ref)) := by
  rcases h with ⟨hholder, hread⟩ | ⟨hwas, hleft⟩
  · by_cases hreleased : q.holders[b]? = some (.transmit ref)
    · refine .inr ⟨⟨ref, hholder ▸ hreleased⟩, fun other => ?_⟩
      rw [Pool.release_holder, if_pos hreleased]
      nofun
    · refine .inl ⟨?_, hread⟩
      rw [Pool.release_holder, if_neg hreleased, hholder]
  · refine .inr ⟨hwas, fun other => ?_⟩
    rw [Pool.release_holder, if_neg (hleft ref)]
    exact hleft other

/-- A record claims no block that is held, and gives none to an entry. -/
theorem record (h : KeptOrLeft b p q) (hheld : p.holders[b]? = some k) (hk : k ≠ .free) (n ref : Nat)
    (payload : List Byte) : KeptOrLeft b p (q.claim (q.grant n) (.receive ref) payload) := by
  rcases h with ⟨hholder, hread⟩ | ⟨hwas, hleft⟩
  · have hq : q.holders[b]? = some k := hholder.trans hheld
    refine .inl ⟨?_, fun j hj => (Pool.claim_read_held hq hk hj).trans (hread j hj)⟩
    rw [Pool.claim_holder, if_neg, hholder]
    intro hgranted
    obtain ⟨-, hfree⟩ := Pool.mem_grant hgranted
    exact hk (Option.some.inj (hq.symm.trans hfree))
  · refine .inr ⟨hwas, fun other => ?_⟩
    rw [ne_eq, Pool.claim_holder_other (h := .receive ref) (k := .transmit other) nofun nofun]
    exact hleft other

end Pool.KeptOrLeft

/-- At a character delivered, blocks of entries may become FREE and FREE ones may go to a record: a block that was held
is kept, or an entry has left it. -/
theorem exec_characterDelivered_keptOrLeft {a c : Bool} {s t : State} (e : exec (.characterDelivered a c) s = .next t)
    {b : Nat} {h : Holder} (hheld : s.pool.holders[b]? = some h) (hh : h ≠ .free) : s.pool.KeptOrLeft b t.pool := by
  refine (exec_poolMoves e).keeps (P := fun v => s.pool.KeptOrLeft b v.pool) (fun v w m hv => ?_)
    (.inl ⟨rfl, fun _ _ => rfl⟩)
  cases m with
  | conclude ref => exact hv.release ref
  | post _ _ _ hc _ => cases hc
  | record _ _ len payload _ _ => exact hv.record hheld hh _ _ payload
  | take _ _ hc => cases hc
  | reset hc => rcases hc with ⟨_, hc⟩ | ⟨_, _, _, _, _, hc⟩ | ⟨_, hc⟩ <;> cases hc

/-- Settles O56: a claim writes to FREE blocks alone, so a POST leaves the bytes of a block held; a block that an entry
leaves at a frame end does not come back to an entry there; and the other commands write nothing. -/
theorem blockContentsAreKept : Obligations.BlockContentsAreKept := by
  refine ⟨fun c s t b j h e hh hj hbefore hafter => ?_, fun c s t e hcharacter hpost a => ?_⟩
  · by_cases hcharacter : ∃ r f, c = .characterDelivered r f
    · obtain ⟨r, f, rfl⟩ := hcharacter
      rcases exec_characterDelivered_keptOrLeft e hbefore hh with ⟨-, hread⟩ | ⟨⟨ref, hwas⟩, hleft⟩
      · exact hread j hj
      · exact absurd (hafter.trans (hbefore.symm.trans hwas)) (hleft ref)
    by_cases hpost : ∃ dt, c = .post dt .close
    · obtain ⟨dt, rfl⟩ := hpost
      rcases exec_post_pool e with hpool | ⟨n, claimant, payload, hpool⟩ <;> rw [hpool]
      exact Pool.claim_read_held hbefore hh hj
    · rw [exec_cells e (fun r f hc => hcharacter ⟨r, f, hc⟩) fun dt hc => hpost ⟨dt, hc⟩]
  · rw [exec_cells e hcharacter hpost]

end Sys2Proof.Machine
end

section
/-! The close of a TAKE (section 8.4): judged by the head record that the opening read and the bytes clocked out since. -/

namespace Sys2Proof.Machine

open Sys2Proof

section
variable {s : State} {r : OpeningReadings} {h : ReceiveRecord}

/-- A TAKE that found no record at its opening is EMPTY (R149). -/
theorem State.presentTake_empty (hopening : s.port.opening = some r) (hnone : r.receiveHead = none) :
    s.presentTake = (s, .empty) := by
  simp only [State.presentTake, hopening, Option.bind_some, hnone]

/-- A TAKE that found a record gives it up once its header and its payload are clocked out, and otherwise keeps it (R150). -/
theorem State.presentTake_found (hopening : s.port.opening = some r) (hfound : r.receiveHead = some h) :
    s.presentTake =
      if h.length + 6 ≤ s.port.byteIndex then (s.removeHeadRecord, .ok) else (s, .incomplete) := by
  simp only [State.presentTake, hopening, Option.bind_some, hfound]

theorem State.removeHeadRecord_cons {rest : List ReceiveRecord} (hq : s.rxq.records = h :: rest) :
    s.removeHeadRecord =
      { s with rxq := { s.rxq with records := rest }, pool := s.pool.release (.receive h.ref) } := by
  simp only [State.removeHeadRecord, hq]
  rfl

end

theorem exec_take_close {s : State} (dt : Nat) {t : State} {r : Result} (hopen : s.port.state = .opened)
    (hcommand : s.port.command = some .take) (hs : s.rot.station ≠ .strapFault)
    (hact : (s.advance dt).presentTake = (t, r)) : exec (.take dt .close) s = .next (t.closedWith r) :=
  congrArg Host.Outcome.next
    ((State.hostStep_close (s := s.advance dt) hopen hcommand _).trans
      (State.closeCommand_acts (s := s.advance dt) hs rfl hact))

/-- Settles O42: the opening's reading tells EMPTY from the rest, the bytes clocked out tell OK from INCOMPLETE, and OK
alone removes the head record. -/
theorem takeRemovesAWholeRead : Obligations.TakeRemovesAWholeRead := by
  rintro dt s u r hopen hcommand hopening hs rfl
  have hclose {t : State} {w : Result} (hact : (s.advance dt).presentTake = (t, w)) :
      exec (.take dt .close) s = .next (t.closedWith w) := exec_take_close dt hopen hcommand hs hact
  have hfound {h : ReceiveRecord} (hsome : r.receiveHead = some h) :=
    State.presentTake_found (s := s.advance dt) hopening hsome
  refine ⟨fun hnone => ?empty, fun h hsome hshort => ?incomplete, fun h rest hsome hwhole hq => ?ok⟩
  case empty => exact hclose (State.presentTake_empty hopening hnone)
  case incomplete => exact hclose ((hfound hsome).trans (if_neg (Nat.not_le.2 hshort)))
  case ok =>
    rw [hclose ((hfound hsome).trans (if_pos hwhole)), State.removeHeadRecord_cons (s := s.advance dt) hq]
    rfl

end Sys2Proof.Machine
end

section
/-! The rows of a host transaction (section 9.4), all of one form: a step of SCK, a whole byte, or the command's close. -/

namespace Sys2Proof.Machine

open Sys2Proof

/-! ## Every row is a step of its command -/

/-- What the close of a command's row does (section 9.4). -/
def closeOf : HostCommand → State → State
  | .nop, s => s.closeWith none
  | .post, s => s.closeCommand s.postComplete State.presentPost
  | .take, s => s.closeCommand true State.presentTake
  | .reap, s => s.closeCommand true State.presentReap
  | .status, s => s.closeStatus
  | .peer, s => s.closePeer
  | .cancel, s => s.closeCommand (!s.port.params.isEmpty) fun s => s.cancelTag (s.port.params.headD 0)
  | .flush, s => s.closeCommand true State.flushAll
  | .leave, s => s.closeCommand true State.presentLeave
  | .rejoin, s => s.closeCommand true State.presentRejoin
  | .restart, s => s.closeCommand true fun s => (s.restart, .ok)
  | .unknown, s => s.closeWith (some .unknownCommand)

theorem exec_hostRow (c : HostCommand) (dt : Nat) (p : HostPhase) (s : State) :
    exec (hostRow c dt p) s = .next ((s.advance dt).hostStep c p (closeOf c)) := by
  cases c <;> rfl

section
variable {s : State} {c : HostCommand}

theorem State.runs_iff : s.runs c = true ↔ s.port.state = .opened ∧ s.port.command = some c := by
  simp [State.runs]

/-- Outside an OPEN transaction of its command a row changes nothing but the clock (assumption log 2). -/
theorem exec_hostRow_elsewhere (h : ¬ (s.port.state = .opened ∧ s.port.command = some c)) (dt : Nat) (p : HostPhase) :
    exec (hostRow c dt p) s = .next (s.advance dt) := by
  rw [exec_hostRow]
  exact congrArg Host.Outcome.next (if_neg (mt (State.runs_iff (s := s.advance dt)).1 h))

variable (hopen : s.port.state = .opened) (hcommand : s.port.command = some c) (dt : Nat)
include hopen hcommand

theorem exec_hostRow_close : exec (hostRow c dt .close) s = .next (closeOf c (s.advance dt)) := by
  rw [exec_hostRow, State.hostStep_close (s := s.advance dt) hopen hcommand]

theorem exec_hostRow_rise (m : Bool) :
    exec (hostRow c dt (.rise m)) s = .next ((s.advance dt).sckRise m (State.exchange c)) := by
  rw [exec_hostRow]
  exact congrArg Host.Outcome.next (if_pos ((State.runs_iff (s := s.advance dt)).2 ⟨hopen, hcommand⟩))

theorem exec_hostRow_fall : exec (hostRow c dt .fall) s = .next (s.advance dt).sckFall := by
  rw [exec_hostRow]
  exact congrArg Host.Outcome.next (if_pos ((State.runs_iff (s := s.advance dt)).2 ⟨hopen, hcommand⟩))

theorem exec_hostRow_byte (b : Byte) :
    exec (hostRow c dt (.byte b)) s = .next ((s.advance dt).sckByte b (State.exchange c)) := by
  rw [exec_hostRow]
  exact congrArg Host.Outcome.next (if_pos ((State.runs_iff (s := s.advance dt)).2 ⟨hopen, hcommand⟩))

end

/-! ## The edges of SCK and the byte boundary (R154) -/

section
variable {s : State} {m : Bool} {b : Byte} {whole : Byte → State → State}

theorem State.sckRise_high (h : s.port.sckHigh = true) : s.sckRise m whole = s := if_pos h

theorem State.sckRise_shifts (hlow : s.port.sckHigh = false) (hbits : s.port.bitsIn.length < 7) :
    s.sckRise m whole = s.setPort { s.port with bitsIn := s.port.bitsIn ++ [m], sckHigh := true } := by
  rw [State.sckRise, if_neg (by simp [hlow])]
  exact if_pos hbits

theorem State.sckRise_completes (hlow : s.port.sckHigh = false) (hbits : 7 ≤ s.port.bitsIn.length) :
    s.sckRise m whole =
      whole (byteOfMosi (s.port.bitsIn ++ [m])) (s.setPort { s.port with bitsIn := [], sckHigh := true }) := by
  rw [State.sckRise, if_neg (by simp [hlow])]
  exact if_neg (Nat.not_lt.2 hbits)

/-- The eight bits of a byte, most significant first, are read back as that byte. -/
theorem byteOfMosi_bitsOf (b : Byte) : byteOfMosi (bitsOf b) = b := by
  refine BitVec.eq_of_getLsbD_eq fun i hi => ?_
  rw [byteOfMosi, getLsbD_byteOfBits _ hi]
  interval_cases i <;> rfl

/-- The rise that samples a byte's last bit completes that byte. -/
theorem State.sckRise_bitsOf (hlow : s.port.sckHigh = false) (hb : s.port.bitsIn ++ [m] = bitsOf b) :
    s.sckRise m whole = whole b (s.setPort { s.port with bitsIn := [], sckHigh := true }) := by
  have hseven : s.port.bitsIn.length = 7 := by simpa [bitsOf] using congrArg List.length hb
  rw [State.sckRise_completes hlow hseven.ge, hb, byteOfMosi_bitsOf]

theorem Port.atBoundary_iff : s.port.atBoundary = true ↔ betweenBytes s := by
  simp [Port.atBoundary, betweenBytes]

theorem State.sckByte_between (h : betweenBytes s) : s.sckByte b whole = whole b s := if_pos (Port.atBoundary_iff.2 h)

theorem State.sckByte_within (h : ¬ betweenBytes s) : s.sckByte b whole = s := if_neg (mt Port.atBoundary_iff.1 h)

end

/-! ## What the port returns (R157, R162) -/

theorem outcomeByte_eq (o : TxOutcome) : outcomeByte o = outcomeCode o := by
  cases o <;> rfl

theorem ReceiveRecord.header_eq (h : ReceiveRecord) : h.header = headerBytes h := by
  obtain ⟨ref, source, cls, lost, length, blocks⟩ := h
  cases cls with
  | cast => rfl
  | data seq new => cases new <;> rfl

/-- A sequence number with two flags in bits 3 and 4 (section 9.3). -/
theorem seqFlagsByte_eq (x : Seq) (a b : Bool) :
    numByte x.toNat ||| bitAt 3 a ||| bitAt 4 b =
      BitVec.ofNat 8 (x.toNat + (if a = true then 8 else 0) + if b = true then 16 else 0) := by
  revert x a b
  decide

theorem PeerSnapshot.block_eq (p : PeerSnapshot) : p.block = peerBytes p := by
  have hexpect : numByte ((p.rxExpect.map (·.toNat)).getD 0) ||| bitAt 3 p.rxExpect.isSome ||| bitAt 4 p.rxLastFresh =
      match p.rxExpect with
      | none => BitVec.ofNat 8 (if p.rxLastFresh = true then 16 else 0)
      | some x => BitVec.ofNat 8 (x.toNat + 8 + if p.rxLastFresh = true then 16 else 0) := by
    cases p.rxExpect with
    | none => cases p.rxLastFresh <;> rfl
    | some x => exact seqFlagsByte_eq x true p.rxLastFresh
  have houtcome : lastOutcomeByte p.lastOutcome =
      match p.lastOutcome with
      | none => 0x07
      | some o => outcomeCode o := by
    cases p.lastOutcome with
    | none => rfl
    | some o => exact outcomeByte_eq o
  simp only [PeerSnapshot.block, peerBytes, seqFlagsByte_eq, hexpect, houtcome]
  rfl

theorem CompletionRecord.block_eq (h : CompletionRecord) :
    h.block = [h.tag, BitVec.ofNat 8 h.dest, outcomeCode h.outcome, BitVec.ofNat 8 h.attempts,
      BitVec.ofNat 8 h.busyAnswers] := by
  rw [CompletionRecord.block, outcomeByte_eq]
  rfl

/-- What a TAKE reads of its record: the header and then the payload. -/
theorem State.takeByte_eq (s : State) (h : ReceiveRecord) (k : Nat) :
    s.takeByte h k =
      if k < 6 then (headerBytes h).getD (k - 2) 0
      else if k - 6 < h.length then payloadByte s.pool.cells h.blocks (k - 6) else 0 := by
  rw [State.takeByte, ReceiveRecord.header_eq, State.recordPayload]

/-- The byte returned is the command's data, read from the opening readings that stand. -/
theorem State.returnByte_eq {s : State} {r : OpeningReadings} (hr : s.port.opening = some r) (c : HostCommand) (k : Nat) :
    s.returnByte c k = dataByte s r c k := by
  unfold State.returnByte dataByte
  rw [hr]
  refine if_congr Iff.rfl rfl ?_
  cases c with
  | take =>
    refine if_congr Iff.rfl rfl ?_
    dsimp only [Option.bind_some]
    cases r.receiveHead with
    | none => rfl
    | some h => exact s.takeByte_eq h k
  | reap =>
    refine if_congr Iff.rfl rfl ?_
    dsimp only [Option.bind_some]
    cases r.completionHead with
    | none => rfl
    | some h => exact congrArg (List.getD · (k - 2) 0) h.block_eq
  | peer =>
    cases s.port.peerSnapshot with
    | none => rfl
    | some p => exact congrArg (List.getD · (k - 2) 0) p.block_eq
  | _ => rfl

end Sys2Proof.Machine
end

section
/-! The bytes of a host transaction after its byte 0 (sections 9.1 and 9.4): what the port returns on MISO, and what the byte
received is: a payload byte, a parameter, or ignored. -/

namespace Sys2Proof.Machine

open Sys2Proof

/-! ## A byte exchanged whole (R154, R157, R164) -/

section
variable {s : State} {c : HostCommand} {b : Byte}

theorem State.stagesNext_iff :
    s.stagesNext = true ↔
      (s.port.state = .opened ∧ s.port.command = some .post) ∧
        (4 ≤ s.port.returned.length ∧ s.port.returned.length < 4 + s.port.postLength) ∧
        (1 ≤ s.port.postLength ∧ s.port.postLength ≤ 120) ∧ s.rot.station ≠ .strapFault := by
  simp only [State.stagesNext, Bool.and_eq_true, State.runs_iff, validLength, decide_eq_true_eq, bne_iff_ne, and_assoc]
  rfl

/-- A payload byte is staged. -/
theorem State.exchange_staged (h : s.stagesNext = true) :
    State.exchange c b s =
      { s with
        port := { s.port with
          returned := s.port.returned ++ [s.returnByte c s.port.returned.length]
          staging := if s.port.returned.length = 4 then [b] else s.port.staging ++ [b] } } := by
  rw [State.exchange, if_pos h]
  rfl

/-- A byte within the command's parameters is taken as one; PEER's is judged, and its snapshot taken, as it is taken
(R170). -/
theorem State.exchange_param (hs : s.stagesNext = false) (hp : s.port.params.length < paramCount c) :
    State.exchange c b s =
      { s with
        port := { s.port with
          returned := s.port.returned ++ [s.returnByte c s.port.returned.length]
          params := s.port.params ++ [b]
          peerSnapshot :=
            if c = .peer ∧ s.straps.peerInUse b.toNat = true then some (s.peerSnapshot b.toNat)
            else s.port.peerSnapshot } } := by
  rw [State.exchange, if_neg (by simp [hs]), State.takeParam, if_pos hp]
  rfl

/-- A byte past the command's parameters, and not staged, is ignored. -/
theorem State.exchange_ignored (hs : s.stagesNext = false) (hp : paramCount c ≤ s.port.params.length) :
    State.exchange c b s =
      { s with port := { s.port with returned := s.port.returned ++ [s.returnByte c s.port.returned.length] } } := by
  rw [State.exchange, if_neg (by simp [hs]), State.takeParam, if_neg (Nat.not_lt.2 hp)]
  rfl

/-- A command other than POST stages nothing. -/
theorem State.stagesNext_other (hcommand : s.port.command = some c) (hc : c ≠ .post) : s.stagesNext = false := by
  refine Bool.eq_false_iff.2 fun h => hc ?_
  obtain ⟨⟨-, hpost⟩, -⟩ := State.stagesNext_iff.1 h
  exact Option.some.inj (hcommand.symm.trans hpost)

/-- A POST whose length has not been taken stages nothing. -/
theorem State.stagesNext_noLength (h : s.port.params.length < 3) : s.stagesNext = false := by
  refine Bool.eq_false_iff.2 fun hs => ?_
  obtain ⟨-, -, ⟨hlength, -⟩, -⟩ := State.stagesNext_iff.1 hs
  have hnone : s.port.params.getD 2 0 = 0 := List.getD_eq_default _ _ (by omega)
  rw [Port.postLength, hnone] at hlength
  exact absurd hlength (by decide)

theorem StrapLatch.peerInUse_iff (l : StrapLatch) (n : Nat) :
    l.peerInUse n = true ↔ n ≠ l.own ∧ n ≤ l.highest ∧ n ≤ 30 := by
  simp [StrapLatch.peerInUse]

/-- The level of SCK has no part in what a byte does. -/
theorem State.exchange_setSck (s : State) (c : HostCommand) (b : Byte) (high : Bool) :
    State.exchange c b (s.setPort { s.port with sckHigh := high }) =
      (State.exchange c b s).setPort { (State.exchange c b s).port with sckHigh := high } := by
  by_cases hs : s.stagesNext = true
  · rw [State.exchange_staged hs]
    exact State.exchange_staged (s := s.setPort { s.port with sckHigh := high }) hs
  · have hs := Bool.eq_false_iff.2 hs
    by_cases hp : s.port.params.length < paramCount c
    · rw [State.exchange_param hs hp]
      exact State.exchange_param (s := s.setPort { s.port with sckHigh := high }) hs hp
    · have hp := Nat.not_lt.1 hp
      rw [State.exchange_ignored hs hp]
      exact State.exchange_ignored (s := s.setPort { s.port with sckHigh := high }) hs hp

end

/-! ## MISO (R154) -/

section
variable {s : State} {m : Bool} {whole : Byte → State → State}

/-- With SCK low MISO shows the bit that comes next of the byte being returned. -/
theorem State.misoBit_low (hopen : s.port.state = .opened) (hlow : s.port.sckHigh = false) :
    s.misoBit = some (s.outByte.getLsbD (7 - s.port.bitsIn.length)) := by
  rw [State.misoBit, if_pos hopen, if_neg (by simp [hlow])]
  rfl

/-- A state just after the eighth rise of a byte, the byte that was being returned counted clocked out. -/
structure ClockedOut (out : Byte) (t : State) : Prop where
  opened : t.port.state = .opened
  high : t.port.sckHigh = true
  bits : t.port.bitsIn = []
  last : t.port.returned.getLastD 0 = out

/-- After the eighth rise MISO still shows the last bit of the byte just clocked out. -/
theorem ClockedOut.misoBit {out : Byte} {t : State} (h : ClockedOut out t) : t.misoBit = some (out.getLsbD 0) := by
  rw [State.misoBit, if_pos h.opened, if_pos h.high, Port.bitCount, h.bits, h.last]
  rfl

/-- A rising edge does not change MISO. -/
theorem State.misoBit_sckRise (hopen : s.port.state = .opened) (hlow : s.port.sckHigh = false)
    (hbits : s.port.bitsIn.length < 8)
    (hwhole : ∀ b, ClockedOut s.outByte (whole b (s.setPort { s.port with bitsIn := [], sckHigh := true }))) :
    (s.sckRise m whole).misoBit = s.misoBit := by
  rw [State.misoBit_low hopen hlow]
  by_cases hseven : s.port.bitsIn.length < 7
  · rw [State.sckRise_shifts hlow hseven]
    have hout (p : Port) (hp : p = { s.port with bitsIn := s.port.bitsIn ++ [m], sckHigh := true }) :
        (s.setPort p).outByte = s.outByte := by subst hp; rfl
    simp [State.misoBit, Port.bitCount, hopen, hout]
  · have hlast : s.port.bitsIn.length = 7 := by omega
    rw [State.sckRise_completes hlow hlast.ge, (hwhole _).misoBit, hlast]

theorem State.decodeCommand_clockedOut (hopen : s.port.state = .opened) (hnone : s.port.command = none) (b : Byte) :
    ClockedOut s.outByte (State.decodeCommand b (s.setPort { s.port with bitsIn := [], sckHigh := true })) :=
  ⟨hopen, rfl, rfl, by rw [State.outByte, hnone]; rfl⟩

theorem State.exchange_clockedOut {c : HostCommand} (hopen : s.port.state = .opened) (hcommand : s.port.command = some c)
    (b : Byte) : ClockedOut s.outByte (State.exchange c b (s.setPort { s.port with bitsIn := [], sckHigh := true })) := by
  have hout : s.outByte = s.returnByte c s.port.byteIndex := by rw [State.outByte, hcommand]
  rw [hout]
  unfold State.exchange State.takeParam
  dsimp only
  split
  · exact ⟨hopen, rfl, rfl, List.getLastD_concat ..⟩
  · split <;> exact ⟨hopen, rfl, rfl, List.getLastD_concat ..⟩

end

/-! ## The bytes of every row -/

section
variable {s : State} {c : HostCommand} {r : OpeningReadings} {b : Byte}

/-- A command that takes no parameter returns its data and ignores the byte sent. -/
theorem exec_hostRow_byte_ignored (dt : Nat) (hopen : s.port.state = .opened) (hcommand : s.port.command = some c)
    (hr : s.port.opening = some r) (hb : betweenBytes s) (hc : c ≠ .post)
    (hp : paramCount c ≤ s.port.params.length) :
    exec (hostRow c dt (.byte b)) s = .next
      { s.advance dt with
        port := { s.port with returned := s.port.returned ++ [dataByte s r c s.port.returned.length] } } := by
  rw [exec_hostRow_byte hopen hcommand, State.sckByte_between (s := s.advance dt) hb,
    State.exchange_ignored (State.stagesNext_other (s := s.advance dt) hcommand hc) hp,
    State.returnByte_eq (s := s.advance dt) hr]
  rfl

/-- The rise that completes a byte does what the whole byte does, and leaves SCK high. -/
theorem exec_hostRow_rise_completes {dt : Nat} {m : Bool} {t : State} (hopen : s.port.state = .opened)
    (hcommand : s.port.command = some c) (hlow : s.port.sckHigh = false) (hb : s.port.bitsIn ++ [m] = bitsOf b)
    (ht : exec (hostRow c dt (.byte b)) { s with port := { s.port with bitsIn := [] } } = .next t) :
    exec (hostRow c dt (.rise m)) s = .next { t with port := { t.port with sckHigh := true } } := by
  have hbyte : State.exchange c b ((s.advance dt).setPort { s.port with bitsIn := [] }) = t := by
    have hwhole := exec_hostRow_byte (s := { s with port := { s.port with bitsIn := [] } }) hopen hcommand dt b
    exact ((Host.Outcome.next.inj (ht.symm.trans hwhole)).trans (State.sckByte_between ⟨rfl, hlow⟩)).symm
  rw [exec_hostRow_rise hopen hcommand, State.sckRise_bitsOf (s := s.advance dt) hlow hb, ← hbyte]
  exact congrArg Host.Outcome.next (State.exchange_setSck ((s.advance dt).setPort { s.port with bitsIn := [] }) c b true)

end

/-- Settles O37: the whole bytes by `exec_hostRow_byte_ignored`, the edges of SCK by the lemmas of `State.sckRise`, MISO by
`State.misoBit_sckRise`. -/
theorem hostBytesAreExchanged : Obligations.HostBytesAreExchanged := by
  refine ⟨?bytes, ?edges, ?miso, fun c dt p s hnot => exec_hostRow_elsewhere hnot dt p⟩
  case bytes =>
    intro c dt b s r hopen hcommand hr hb hpost hpeer hcancel
    have hnone : paramCount c = 0 := by
      cases c with
      | post => contradiction
      | peer => contradiction
      | cancel => contradiction
      | _ => rfl
    exact exec_hostRow_byte_ignored dt hopen hcommand hr hb hpost (hnone.trans_le (Nat.zero_le _))
  case edges =>
    rintro c dt m s u hopen hcommand rfl
    have hrise := exec_hostRow_rise hopen hcommand dt m
    refine ⟨fun hlow hbits => ?_, fun b t hlow hb ht => exec_hostRow_rise_completes hopen hcommand hlow hb ht,
      exec_hostRow_fall hopen hcommand dt, fun hhigh => ?_, fun b hwithin => ?_⟩
    · rw [hrise, State.sckRise_shifts (s := s.advance dt) hlow hbits]
      rfl
    · rw [hrise, State.sckRise_high (s := s.advance dt) hhigh]
    · rw [exec_hostRow_byte hopen hcommand, State.sckByte_within (s := s.advance dt) hwithin]
  case miso =>
    intro c s r hr hlow
    refine ⟨fun hclosed => if_neg hclosed, fun hopen hnone => ?_, fun hopen hcommand => ?_, ?_⟩
    · rw [State.misoBit_low hopen hlow, State.outByte, hnone, Port.summaryByte, hr]
      rfl
    · rw [State.misoBit_low hopen hlow, State.outByte, hcommand, ← State.returnByte_eq hr]
      rfl
    · rintro dt m t hopen hbits (⟨hnone, ht⟩ | ⟨hcommand, ht⟩)
      · have hrise : exec (.commandDecode dt (.rise m)) s = .next ((s.advance dt).sckRise m State.decodeCommand) :=
          congrArg Host.Outcome.next (if_pos ⟨hopen, hnone⟩)
        cases hrise.symm.trans ht
        exact State.misoBit_sckRise (s := s.advance dt) hopen hlow hbits
          (State.decodeCommand_clockedOut (s := s.advance dt) hopen hnone)
      · cases (exec_hostRow_rise hopen hcommand dt m).symm.trans ht
        exact State.misoBit_sckRise (s := s.advance dt) hopen hlow hbits
          (State.exchange_clockedOut (s := s.advance dt) hopen hcommand)

/-! ## The bytes of POST, PEER and CANCEL (R157, R164, R170) -/

section
variable {s : State} {p0 p1 p2 : Byte}

/-- A POST returns 00h from byte 2. -/
theorem State.returnByte_post {k : Nat} (h : 2 ≤ k) : s.returnByte .post k = 0 := if_neg (by omega)

/-- A payload byte of a POST is staged, and 00h is returned. -/
theorem State.exchange_payload {b : Byte} (h : s.stagesNext = true) :
    State.exchange .post b s =
      { s with
        port := { s.port with
          returned := s.port.returned ++ [0]
          staging := if s.port.returned.length = 4 then [b] else s.port.staging ++ [b] } } := by
  obtain ⟨-, ⟨hfour, -⟩, -⟩ := State.stagesNext_iff.1 h
  rw [State.exchange_staged h, State.returnByte_post (by omega)]

/-- With its parameters taken, the next byte of a POST is staged when the length is that of a message, the byte is one of
its payload, and the station is not in STRAP_FAULT. -/
theorem State.stagesNext_params (hopen : s.port.state = .opened) (hcommand : s.port.command = some .post)
    (hparams : s.port.params = [p0, p1, p2]) :
    s.stagesNext = true ↔ s.rot.station ≠ .strapFault ∧ 1 ≤ p2.toNat ∧ p2.toNat ≤ 120 ∧ 4 ≤ s.port.returned.length ∧
      s.port.returned.length < 4 + p2.toNat := by
  have hlength : s.port.postLength = p2.toNat := by rw [Port.postLength, hparams]; rfl
  rw [State.stagesNext_iff, hlength]
  tauto

end

/-- Settles O38: by the lemmas of `State.exchange`, one for each thing that a byte may be. -/
theorem parameterBytesAreTaken : Obligations.ParameterBytesAreTaken := by
  refine ⟨?bytes, ?post⟩
  case bytes =>
    rintro c n dt b s u r hc hopen hcommand hr hb rfl
    have hcount : paramCount c = n := by rcases hc with ⟨rfl, rfl⟩ | ⟨rfl, rfl⟩ | ⟨rfl, rfl⟩ <;> rfl
    subst hcount
    refine ⟨fun hfew => ?param, fun hall hpost => exec_hostRow_byte_ignored dt hopen hcommand hr hb hpost hall⟩
    case param =>
      have hthree : s.port.params.length < 3 :=
        hfew.trans_le (by rcases hc with ⟨rfl, -⟩ | ⟨rfl, -⟩ | ⟨rfl, -⟩ <;> decide)
      rw [exec_hostRow_byte hopen hcommand, State.sckByte_between (s := s.advance dt) hb,
        State.exchange_param (s := s.advance dt) (State.stagesNext_noLength hthree) hfew,
        State.returnByte_eq (s := s.advance dt) hr]
      simp only [StrapLatch.peerInUse_iff]
      rfl
  case post =>
    rintro dt b p0 p1 p2 s u staged hopen hcommand hb hparams htwo rfl hstaged
    have hstages := State.stagesNext_params (s := s.advance dt) hopen hcommand hparams
    have hexec : exec (.post dt (.byte b)) s = .next (State.exchange .post b (s.advance dt)) :=
      (exec_hostRow_byte hopen hcommand dt b).trans (congrArg Host.Outcome.next (State.sckByte_between hb))
    have hall : paramCount .post ≤ (s.advance dt).port.params.length := (congrArg List.length hparams).ge
    refine ⟨fun h => ?_, fun h => ?_⟩
    · rw [hexec, State.exchange_payload (hstages.2 (hstaged.1 h))]
      rfl
    · rw [hexec, State.exchange_ignored (Bool.eq_false_iff.2 fun hs => h (hstaged.2 (hstages.1 hs))) hall,
        State.returnByte_post (k := (s.advance dt).port.returned.length) htwo]
      rfl

/-- Settles O39: POST_PAYLOAD_BYTE acts only where the next byte is staged. -/
theorem payloadBytesAreStaged : Obligations.PayloadBytesAreStaged := by
  rintro dt b p0 p1 p2 s u hopen hcommand hparams rfl
  have hstages := State.stagesNext_params (s := s.advance dt) hopen hcommand hparams
  have hexec : exec (.postPayloadByte dt b) s = .next
      (if (s.advance dt).stagesNext = true then (s.advance dt).sckByte b (State.exchange .post) else s.advance dt) := rfl
  refine ⟨fun hs h1 h120 h4 hin hb => ?_, fun hnot => ?_⟩
  · have hstage := hstages.2 ⟨hs, h1, h120, h4, hin⟩
    rw [hexec, if_pos hstage, State.sckByte_between (s := s.advance dt) hb, State.exchange_payload hstage]
    rfl
  · rw [hexec]
    split
    case isFalse => rfl
    case isTrue hstage =>
      obtain ⟨hs, h1, h120, -, hin⟩ := hstages.1 hstage
      dsimp only [State.advance_port] at hin
      have hwithin : ¬ betweenBytes s := by
        rcases hnot with h | h | h | h | h
        · exact absurd h hs
        · omega
        · omega
        · omega
        · exact h
      rw [State.sckByte_within (s := s.advance dt) hwithin]

end Sys2Proof.Machine
end

section
/-! The opening of a host transaction, its byte 0, and the closes before byte 0 is whole (sections 9.1 to 9.3), with the
output pin ATTN. -/

namespace Sys2Proof.Machine

open Sys2Proof

/-! ## The readings of the opening (R155, R160, R168) -/

/-- Bit `i` of a byte whose bit `k` alone may be set. -/
theorem getLsbD_bitAt (k : Nat) (b : Bool) {i : Nat} (hi : i < 8) : (bitAt k b).getLsbD i = (b && decide (i = k)) := by
  cases b
  · simp [bitAt]
  · rw [bitAt, if_pos rfl, BitVec.getLsbD_ofNat, Nat.testBit_two_pow]
    simp [hi, eq_comm]

/-- The station state stands in bits 3:2 of the summary byte and nowhere else. -/
theorem getLsbD_stationBits (c : StationState) {i : Nat} (hi : i < 8) (h2 : i ≠ 2) (h3 : i ≠ 3) :
    (numByte (4 * stationCode c)).getLsbD i = false := by
  cases c <;> (revert i; decide)

/-- Bits 3:2 of the summary byte, whatever its other bits. -/
theorem summary_station (a b c d e f : Bool) (x : StationState) :
    (bitAt 7 a ||| bitAt 6 b ||| bitAt 5 c ||| bitAt 4 d ||| numByte (4 * stationCode x) ||| bitAt 1 e |||
      bitAt 0 f).toNat / 4 % 4 = stationCode x := by
  cases x <;> revert a b c d e f <;> decide

/-- Byte 2 of the STATUS block as a sum (section 9.3). -/
theorem statusByte_toNat (x : StationState) (a b c d : Bool) :
    (numByte (stationCode x) ||| bitAt 2 a ||| bitAt 3 b ||| bitAt 4 c ||| bitAt 5 d).toNat =
      stationCode x + (if a = true then 4 else 0) + (if b = true then 8 else 0) + (if c = true then 16 else 0) +
        if d = true then 32 else 0 := by
  cases x <;> revert a b c d <;> decide

section
variable (s : State)

theorem State.summary_bit {i : Nat} (hi : i < 8) (h2 : i ≠ 2) (h3 : i ≠ 3) :
    s.summary.getLsbD i =
      (!s.rxq.records.isEmpty && decide (i = 7) || !s.compq.isEmpty && decide (i = 6) ||
        s.rot.changeFlag && decide (i = 5) || s.rot.anchored && decide (i = 4) || s.rot.leaving && decide (i = 1) ||
        decide (s.txq.length + s.compq.length = 16) && decide (i = 0)) := by
  simp only [State.summary, BitVec.getLsbD_or, getLsbD_bitAt _ _ hi, getLsbD_stationBits _ hi h2 h3, Bool.or_false]
  rfl

/-- What the bits of the summary byte show, outside the station state's (section 9.3). -/
theorem State.summary_flags :
    (s.summary.getLsbD 7 = true ↔ s.rxq.records ≠ []) ∧ (s.summary.getLsbD 6 = true ↔ s.compq ≠ []) ∧
      s.summary.getLsbD 5 = s.rot.changeFlag ∧ s.summary.getLsbD 4 = s.rot.anchored ∧
      s.summary.getLsbD 1 = s.rot.leaving ∧
      (s.summary.getLsbD 0 = true ↔ s.txq.length + s.compq.length = 16) := by
  refine ⟨?_, ?_, ?_, ?_, ?_, ?_⟩ <;> rw [s.summary_bit (by decide) (by decide) (by decide)] <;> simp

/-- ATTN reads the two queues and the change flag (R176). -/
theorem State.attn_iff : s.attn = true ↔ s.rxq.records ≠ [] ∨ s.compq ≠ [] ∨ s.rot.changeFlag = true := by
  simp [State.attn, or_assoc]

end

/-! ## The opening (R154, R155, R159, R177) -/

section
variable {s : State}

theorem exec_transactionOpen_idle (dt : Nat) (hrst : s.rstLow = false) (hidle : s.port.state = .idle) :
    exec (.transactionOpen dt) s = .next (s.advance dt).openTransaction :=
  congrArg Host.Outcome.next (if_pos ⟨hrst, hidle⟩)

theorem exec_transactionOpen_refused (dt : Nat) (h : s.rstLow = true ∨ s.port.state = .barred) :
    exec (.transactionOpen dt) s = .next (s.advance dt) := by
  refine congrArg Host.Outcome.next (if_neg ?_)
  rintro ⟨hrst, hidle⟩
  simp only [State.advance_rstLow, State.advance_port] at hrst hidle
  simp [hrst, hidle] at h

/-- A step of a row before the close leaves ATTN as it is. -/
theorem exec_hostRow_attn {c : HostCommand} {dt : Nat} {p : HostPhase} {t : State} (hp : p ≠ .close)
    (ht : exec (hostRow c dt p) s = .next t) : t.attn = s.attn := by
  rw [exec_hostRow] at ht
  injection ht with ht
  rcases (s.advance dt).hostStep_cases c p (closeOf c) with ⟨⟨hclose, -⟩, -⟩ | ⟨-, v, hport⟩
  · exact absurd hclose hp
  · rw [← ht, hport]
    rfl

end

/-- Settles O34: the readings bit by bit, ATTN by `State.attn_iff` and `exec_hostRow_attn`. -/
theorem openingReadingsAndAttention : Obligations.OpeningReadingsAndAttention := by
  refine ⟨?opening, ⟨rfl, rfl⟩, fun dt s h => exec_transactionOpen_refused dt h, State.attn_iff,
    fun c dt p s t hp ht => exec_hostRow_attn hp ht⟩
  case opening =>
    rintro dt s u hrst hidle rfl
    have hstation : s.summary.toNat / 4 % 4 = stationCode s.rot.station := summary_station ..
    have hstatus := statusByte_toNat s.rot.station (s.rot.cause == .request) s.rot.anchored s.rot.leaving s.rot.changeFlag
    simp only [beq_iff_eq] at hstatus
    obtain ⟨hrecords, hcompq, hchange, hanchored, hleaving, hbudget⟩ := s.summary_flags
    exact ⟨_, s.readOpening, exec_transactionOpen_idle dt hrst hidle, rfl, rfl, rfl, rfl, rfl, hrecords, hcompq, hchange,
      hanchored, hstation, hleaving, hbudget, rfl, hstatus, rfl⟩

/-! ## Byte 0 (R154, R155, R156) -/

/-- The byte that selects a command, of those of the command table (section 9.3). -/
def tableByte : HostCommand → Option Byte
  | .nop => some 0x00
  | .post => some 0x10
  | .take => some 0x20
  | .reap => some 0x30
  | .status => some 0x40
  | .peer => some 0x41
  | .cancel => some 0x50
  | .flush => some 0x51
  | .leave => some 0x60
  | .rejoin => some 0x61
  | .restart => some 0x7E
  | .unknown => none

/-- A command of the table is selected by its own byte. -/
theorem commandOfByte_eq_of_tableByte {c : HostCommand} {x : Byte} (h : tableByte c = some x) : commandOfByte x = c := by
  cases c with
  | unknown => cases h
  | _ => cases h; rfl

/-- A byte that selects a command other than UNKNOWN is the command's byte. -/
theorem tableByte_commandOfByte (b : Byte) :
    commandOfByte b = .unknown ∨ tableByte (commandOfByte b) = some b := by
  unfold commandOfByte
  split
  case h_12 => exact .inl rfl
  all_goals exact .inr (congrArg some (BitVec.eq_of_toNat_eq (Eq.symm ‹_›)))

theorem commandOfByte_iff {c : HostCommand} {x : Byte} (h : tableByte c = some x) (b : Byte) :
    commandOfByte b = c ↔ b = x := by
  constructor
  · rintro rfl
    rcases tableByte_commandOfByte b with hb | hb
    · rw [hb] at h
      cases h
    · exact Option.some.inj (hb.symm.trans h)
  · rintro rfl
    exact commandOfByte_eq_of_tableByte h

section
variable {s : State}

theorem exec_commandDecode (hopen : s.port.state = .opened) (hnone : s.port.command = none) (dt : Nat)
    (step : FirstByteStep) : exec (.commandDecode dt step) s = .next ((s.advance dt).firstByte step) :=
  congrArg Host.Outcome.next (if_pos ⟨hopen, hnone⟩)

/-- The decode sets the command, returns the summary byte, and keeps the readings that the command uses. -/
theorem State.decodeCommand_eq {r : OpeningReadings} (hr : s.port.opening = some r) (b : Byte) :
    State.decodeCommand b s =
      { s with
        port := { s.port with
          command := some (commandOfByte b), returned := [r.summary], opening := some (r.keepFor (commandOfByte b)) } } := by
  rw [State.decodeCommand, Port.summaryByte, hr]
  rfl

end

/-- Settles O35: the table by `commandOfByte_iff`, the edges of SCK by the lemmas of `State.sckRise`. -/
theorem commandDecodeResult : Obligations.CommandDecodeResult := by
  constructor
  · rintro dt b s u r hopen hnone hr rfl
    have hdecode := exec_commandDecode hopen hnone dt
    refine ⟨commandOfByte b, r.keepFor (commandOfByte b), commandOfByte_iff rfl b, commandOfByte_iff rfl b,
      commandOfByte_iff rfl b, commandOfByte_iff rfl b, commandOfByte_iff rfl b, commandOfByte_iff rfl b,
      commandOfByte_iff rfl b, commandOfByte_iff rfl b, commandOfByte_iff rfl b, commandOfByte_iff rfl b,
      commandOfByte_iff rfl b, rfl, fun hb => ?_, fun m hlow hbits => ?_⟩
    · rw [hdecode, State.firstByte, State.sckByte_between (s := s.advance dt) hb,
        State.decodeCommand_eq (s := s.advance dt) hr]
      rfl
    · rw [hdecode, State.firstByte, State.sckRise_bitsOf (s := s.advance dt) hlow hbits]
      exact congrArg Host.Outcome.next
        (State.decodeCommand_eq (s := (s.advance dt).setPort { s.port with bitsIn := [], sckHigh := true }) hr b)
  · rintro dt m s u hopen hnone rfl
    refine ⟨fun hlow hbits => ?_, exec_commandDecode hopen hnone dt .fall⟩
    rw [exec_commandDecode hopen hnone, State.firstByte, State.sckRise_shifts (s := s.advance dt) hlow hbits]
    rfl

/-- Settles O36: both rows act on the port alone. -/
theorem voidAndBarredClosesSetNoResult : Obligations.VoidAndBarredClosesSetNoResult :=
  fun _ _ => ⟨fun hopen hnone => congrArg Host.Outcome.next (if_pos ⟨hopen, hnone⟩),
    fun hbarred => congrArg Host.Outcome.next (if_pos hbarred)⟩

end Sys2Proof.Machine
end

section
/-! The closes of STATUS, LEAVE, REJOIN and RESTART, and the closes that act on nothing (sections 9.4 and 9.5). -/

namespace Sys2Proof.Machine

open Sys2Proof

/-! ## STATUS (R168, R169) -/

section
variable {s : State}

theorem State.closeStatus_whole (h : 18 ≤ s.port.returned.length) :
    s.closeStatus = (s.setRot s.rot.clearRequest).closedWith .ok := if_pos h

theorem State.closeStatus_short (h : s.port.returned.length < 18) : s.closeStatus = s.closedWith .incomplete :=
  if_neg (Nat.not_le.2 h)

theorem Rotation.clearRequest_clears {r : Rotation} (h : r.setSinceSnapshot = false) :
    r.clearRequest = { r with changeFlag := false } := if_pos h

/-- A set taken since the opening keeps the flag (R64). -/
theorem Rotation.clearRequest_keeps {r : Rotation} (h : r.setSinceSnapshot = true) : r.clearRequest = r :=
  if_neg (by simp [h])

end

/-- Settles O44: the close of a whole read puts the clear request, which a set since the opening voids. -/
theorem statusClearsTheChangeFlag : Obligations.StatusClearsTheChangeFlag := by
  rintro dt s u hopen hcommand rfl
  have hexec : exec (.status dt .close) s = .next (s.advance dt).closeStatus := exec_hostRow_close hopen hcommand dt
  refine ⟨fun hwhole hnotSet => ?_, fun hwhole hset => ?_, fun hshort => ?_⟩
  · rw [hexec, State.closeStatus_whole (s := s.advance dt) hwhole,
      Rotation.clearRequest_clears (r := (s.advance dt).rot) hnotSet]
    rfl
  · rw [hexec, State.closeStatus_whole (s := s.advance dt) hwhole,
      Rotation.clearRequest_keeps (r := (s.advance dt).rot) hset]
    rfl
  · rw [hexec, State.closeStatus_short (s := s.advance dt) hshort]

/-! ## LEAVE and REJOIN (R60, R62, R172, R173) -/

section
variable {s : State} {r : Rotation}

theorem Rotation.betweenActivities_iff :
    r.betweenActivities = true ↔ r.ownFrame = false ∧ r.answerWatch = false ∧ r.answer = false := by
  simp [Rotation.betweenActivities, and_assoc]

/-- Between activities LEAVE withdraws at once, with cause REQUEST. -/
theorem Rotation.leave_between (h : r.ownFrame = false ∧ r.answerWatch = false ∧ r.answer = false) :
    r.leave = (withdrawn r, .ok) := if_pos (Rotation.betweenActivities_iff.2 h)

/-- With an activity in progress LEAVE is deferred. -/
theorem Rotation.leave_deferred (h : r.ownFrame = true ∨ r.answerWatch = true ∨ r.answer = true) :
    r.leave = ({ r with leaving := true }, .deferred) := by
  refine if_neg (mt Rotation.betweenActivities_iff.1 ?_)
  rintro ⟨hframe, hwatch, hanswer⟩
  simp [hframe, hwatch, hanswer] at h

theorem State.presentLeave_withdrawn (h : s.rot.station = .withdrawn) : s.presentLeave = (s, .wrongState) := if_pos h

theorem State.presentLeave_onLine (h : s.rot.station ≠ .withdrawn) :
    s.presentLeave = (s.setRot s.rot.leave.1, s.rot.leave.2) := if_neg h

theorem State.presentRejoin_withdrawn (h : s.rot.station = .withdrawn) :
    s.presentRejoin = (s.setRot (s.rot.rejoin s.now), .ok) := if_pos h

theorem State.presentRejoin_refused (h : s.rot.station ≠ .withdrawn) : s.presentRejoin = (s, .wrongState) := if_neg h

/-- The close of a row that takes no parameter and judges at the close, outside STRAP_FAULT. -/
theorem exec_hostRow_close_acts {c : HostCommand} {act : State → State × Result} {t : State} {w : Result}
    (hclose : closeOf c = fun s => s.closeCommand true act) (hopen : s.port.state = .opened)
    (hcommand : s.port.command = some c) (hs : s.rot.station ≠ .strapFault) (dt : Nat)
    (hact : act (s.advance dt) = (t, w)) : exec (hostRow c dt .close) s = .next (t.closedWith w) := by
  rw [exec_hostRow_close hopen hcommand, hclose]
  exact congrArg Host.Outcome.next (State.closeCommand_acts (s := s.advance dt) hs rfl hact)

end

/-- Settles O47: by the station state, and LEAVE by whether an activity is in progress. -/
theorem leaveAndRejoin : Obligations.LeaveAndRejoin := by
  constructor
  case left =>
    rintro dt s u hopen hcommand rfl
    have hclose {t : State} {w : Result} (hs : s.rot.station ≠ .strapFault)
        (hact : (s.advance dt).presentLeave = (t, w)) : exec (.leave dt .close) s = .next (t.closedWith w) :=
      exec_hostRow_close_acts rfl hopen hcommand hs dt hact
    refine ⟨fun hwithdrawn => ?_, fun honline => ?_⟩
    · exact hclose (by simp [hwithdrawn]) (State.presentLeave_withdrawn hwithdrawn)
    · have hs : s.rot.station ≠ .strapFault ∧ s.rot.station ≠ .withdrawn := by rcases honline with h | h <;> simp [h]
      have hleave := State.presentLeave_onLine (s := s.advance dt) hs.2
      refine ⟨fun hbetween => ?_, fun hactivity => ?_⟩
      · rw [State.advance_rot, Rotation.leave_between hbetween] at hleave
        exact hclose hs.1 hleave
      · rw [State.advance_rot, Rotation.leave_deferred hactivity] at hleave
        exact hclose hs.1 hleave
  case right =>
    rintro dt s u hopen hcommand rfl
    have hclose {t : State} {w : Result} (hs : s.rot.station ≠ .strapFault)
        (hact : (s.advance dt).presentRejoin = (t, w)) : exec (.rejoin dt .close) s = .next (t.closedWith w) :=
      exec_hostRow_close_acts rfl hopen hcommand hs dt hact
    refine ⟨fun hwithdrawn => ?_, fun honline => ?_⟩
    · exact hclose (by simp [hwithdrawn]) (State.presentRejoin_withdrawn hwithdrawn)
    · have hs : s.rot.station ≠ .strapFault ∧ s.rot.station ≠ .withdrawn := by rcases honline with h | h <;> simp [h]
      exact hclose hs.1 (State.presentRejoin_refused (s := s.advance dt) hs.2)

/-! ## RESTART (R16, R37, R174) -/

section
variable {s : State}

theorem State.restartLine_idle (h : s.driver.cond = .idle) :
    s.restartLine = s.resetReceiver.setEm Emitter.init := by
  rw [State.restartLine, h]

theorem State.restartLine_driving (h : s.driver.cond = .driving) :
    s.restartLine =
      (s.setDriver { s.driver with cond := .finishing, next := none }).setEm
        { Emitter.init with cond := if s.em.cond = .idle then .idle else .finishing } := by
  rw [State.restartLine, h]

theorem State.restartLine_finishing (h : s.driver.cond = .finishing) :
    s.restartLine = s.setEm { Emitter.init with cond := if s.em.cond = .idle then .idle else .finishing } := by
  rw [State.restartLine, h]

/-- The emitter is left finishing its character only with a driver that is not IDLE. -/
theorem State.restartLine_em (s : State) :
    s.restartLine.em =
      { Emitter.init with cond := if s.driver.cond = .idle ∨ s.em.cond = .idle then .idle else .finishing } := by
  cases h : s.driver.cond with
  | idle => rw [State.restartLine_idle h]; rfl
  | driving => rw [State.restartLine_driving h]; simp
  | finishing => rw [State.restartLine_finishing h]; simp

/-- Outside the line interface and the emitter the RESTART values do not depend on the driver; the strap latch and the
contents of the blocks stay (R139, R174). -/
theorem State.restart_eq (s : State) :
    s.restart =
      { State.reset with
        now := s.now
        rstLow := s.rstLow
        straps := s.straps
        quiet := s.restartLine.quiet
        rx := s.restartLine.rx
        driver := s.restartLine.driver
        em := s.restartLine.em
        rot := { State.reset.rot with listenEntry := s.now, changeFlag := true, setSinceSnapshot := true }
        pool := { holders := List.replicate 64 .free, cells := s.pool.cells }
        pending := s.pending } := by
  rw [State.restart]
  cases h : s.driver.cond with
  | idle => rw [State.restartLine_idle h]; rfl
  | driving => rw [State.restartLine_driving h]; rfl
  | finishing => rw [State.restartLine_finishing h]; rfl

end

/-- Settles O48: the blocks above the line by `State.restart_eq`, the line by the condition of the driver. -/
theorem restartResetsAllButTheStraps : Obligations.RestartResetsAllButTheStraps := by
  rintro dt s u hopen hcommand hs rfl
  have hexec : exec (.restart dt .close) s = .next ((s.advance dt).restart.closedWith .ok) :=
    exec_hostRow_close_acts rfl hopen hcommand hs dt rfl
  refine ⟨_, hexec, ?_, fun h => ?_, fun h => ?_, fun h => ?_⟩
  · rw [State.restart_eq, State.restartLine_em, State.advance_em_cond]
    rfl
  · rw [State.restart_eq, State.restartLine_idle h]
    exact ⟨rfl, rfl, rfl⟩
  · rw [State.restart_eq, State.restartLine_driving h]
    exact ⟨rfl, rfl, rfl⟩
  · rw [State.restart_eq, State.restartLine_finishing h]
    exact ⟨rfl, rfl, rfl⟩

/-! ## The closes that act on nothing (R158, R163, R175) -/

/-- In STRAP_FAULT the close of a command that acts at its close is refused. -/
theorem closeOf_refused {s : State} (h : s.rot.station = .strapFault) {c : HostCommand} (hnop : c ≠ .nop)
    (hstatus : c ≠ .status) (hpeer : c ≠ .peer) (hunknown : c ≠ .unknown) : closeOf c s = s.closedWith .wrongState := by
  cases c with
  | nop => contradiction
  | status => contradiction
  | peer => contradiction
  | unknown => contradiction
  | _ => exact if_pos h

/-- Settles O49: NOP and UNKNOWN by their closes, the other commands by `closeOf_refused`. -/
theorem closesWithoutEffect : Obligations.ClosesWithoutEffect := by
  constructor
  · rintro dt s u hopen rfl
    exact ⟨fun hnop => exec_hostRow_close hopen hnop dt, fun hunknown => exec_hostRow_close hopen hunknown dt⟩
  · intro c dt s hs hopen hcommand hnop hstatus hpeer hunknown
    rw [exec_hostRow_close hopen hcommand, closeOf_refused (s := s.advance dt) hs hnop hstatus hpeer hunknown]

end Sys2Proof.Machine
end

section
/-! The step and the queue of commands that wait (assumption log 3): a step takes the front of the queue, and no command
touches the queue itself. -/

namespace Sys2Proof.Machine

open Sys2Proof

/-! ## The operations of the line and the rotation -/

section
variable {s t : State}

theorem State.NoticeTouched.pending (h : s.NoticeTouched t) : t.pending = s.pending := by rw [h]

theorem State.ReportTouched.pending (h : s.ReportTouched t) : t.pending = s.pending := by rw [h]

theorem State.TurnTouched.pending (h : s.TurnTouched t) : t.pending = s.pending := by rw [h]

/-- A command that acts only when its guard holds leaves the queue when its effect does. -/
theorem State.ite_pending {p : Prop} [Decidable p] (h : p → t.pending = s.pending) :
    (if p then t else s).pending = s.pending := by
  split
  · exact h ‹_›
  · rfl

end

section
variable (s : State)

@[simp] theorem State.takeCharacter_pending (o : EndOrder) : (s.takeCharacter o).pending = s.pending := by
  unfold State.takeCharacter
  dsimp only
  split
  · rfl
  · exact (State.deliver_touched ..).pending

@[simp] theorem State.truncate_pending : s.truncate.pending = s.pending := s.truncate_touched.pending

@[simp] theorem State.endWaits_pending (rotationFirst : Bool) (start : Nat) :
    (s.endWaits rotationFirst start).pending = s.pending := by
  unfold State.endWaits
  split
  · rw [(State.watchPassed_mayClose ..).touched.pending, State.glitchWindow_eq, State.setRot_pending]
  · rw [State.glitchWindow_eq, State.setRot_pending, (State.watchPassed_mayClose ..).touched.pending]

@[simp] theorem State.glitch_pending (rotationFirst : Bool) : (s.glitch rotationFirst).pending = s.pending :=
  (State.endWaits_pending ..).trans (State.ite_pending fun _ => State.truncate_pending _)

@[simp] theorem State.toNextStart_pending : s.toNextStart.pending = s.pending := State.ite_pending fun _ => rfl

@[simp] theorem State.charSent_pending : s.charSent.pending = s.pending := by
  unfold State.charSent
  dsimp only
  split
  · exact (State.emittedReport_touched ..).pending
  · rfl

@[simp] theorem State.mismatch_pending (k : MismatchKind) (cell : Nat) : (s.mismatch k cell).pending = s.pending :=
  (s.mismatch_touched k cell).pending

@[simp] theorem State.slotStart_pending (i : Nat) : (s.slotStart i).pending = s.pending := by
  unfold State.slotStart
  dsimp only
  split
  · exact (State.ownTurn_touched (s.setRot _)).pending
  · rfl

@[simp] theorem State.restTest_pending : s.restTest.pending = s.pending := by
  unfold State.restTest
  split <;> rfl

@[simp] theorem State.answerWindow_pending (p : PendingAnswer) : (s.answerWindow p).pending = s.pending := by
  unfold State.answerWindow
  split <;> rfl

@[simp] theorem State.closeWatch_pending (w : Watched) (r : WatchResult) :
    (s.closeWatch w r).pending = s.pending := by
  rw [State.closeWatch_frame]

@[simp] theorem State.startEdge_pending : s.startEdge.pending = s.pending := by
  unfold State.startEdge
  refine State.ite_pending fun _ => ?_
  split <;> rfl

end

/-! ## The rows of a host transaction -/

section
variable (s : State)

@[simp] theorem State.presentPost_pending : s.presentPost.1.pending = s.pending := by
  unfold State.presentPost
  dsimp only
  split <;> rfl

@[simp] theorem State.removeHeadRecord_pending : s.removeHeadRecord.pending = s.pending := by
  unfold State.removeHeadRecord
  split <;> rfl

@[simp] theorem State.presentTake_pending : s.presentTake.1.pending = s.pending := by
  unfold State.presentTake
  split
  · rfl
  · split
    · exact s.removeHeadRecord_pending
    · rfl

@[simp] theorem State.presentReap_pending : s.presentReap.1.pending = s.pending := by
  unfold State.presentReap
  split
  · rfl
  · split <;> rfl

@[simp] theorem State.cancelTag_pending (tag : Byte) : (s.cancelTag tag).1.pending = s.pending := by
  unfold State.cancelTag
  split
  · rfl
  · rw [State.cancelEntry_frame]

@[simp] theorem State.flushAll_pending : s.flushAll.1.pending = s.pending := by
  rw [State.flushAll, State.cancelAll_frame]

@[simp] theorem State.presentLeave_pending : s.presentLeave.1.pending = s.pending := by
  unfold State.presentLeave
  split <;> rfl

@[simp] theorem State.presentRejoin_pending : s.presentRejoin.1.pending = s.pending := by
  unfold State.presentRejoin
  split <;> rfl

@[simp] theorem State.closeStatus_pending : s.closeStatus.pending = s.pending := by
  unfold State.closeStatus
  split <;> rfl

@[simp] theorem State.restart_pending : s.restart.pending = s.pending := by rw [State.restart_eq]

theorem State.closeCommand_pending {complete : Bool} {act : State → State × Result}
    (hact : (act s).1.pending = s.pending) : (s.closeCommand complete act).pending = s.pending := by
  unfold State.closeCommand
  split
  · rfl
  · split
    · exact hact
    · rfl

/-- The close of every command leaves the queue. -/
theorem closeOf_pending (c : HostCommand) : (closeOf c s).pending = s.pending := by
  cases c with
  | nop => rfl
  | post => exact s.closeCommand_pending s.presentPost_pending
  | take => exact s.closeCommand_pending s.presentTake_pending
  | reap => exact s.closeCommand_pending s.presentReap_pending
  | status => exact s.closeStatus_pending
  | peer => rfl
  | cancel => exact s.closeCommand_pending (s.cancelTag_pending _)
  | flush => exact s.closeCommand_pending s.flushAll_pending
  | leave => exact s.closeCommand_pending s.presentLeave_pending
  | rejoin => exact s.closeCommand_pending s.presentRejoin_pending
  | restart => exact s.closeCommand_pending s.restart_pending
  | unknown => rfl

end

/-- A row of a host transaction leaves the queue: it is the close of its command, or touches the port alone. -/
theorem exec_hostRow_pending {s t : State} (c : HostCommand) (dt : Nat) (p : HostPhase)
    (e : exec (hostRow c dt p) s = .next t) : t.pending = s.pending := by
  rw [exec_hostRow] at e
  injection e with e
  subst e
  rcases (s.advance dt).hostStep_cases c p (closeOf c) with ⟨-, heq⟩ | ⟨-, v, heq⟩ <;> rw [heq]
  · exact closeOf_pending (s.advance dt) c
  · rfl

/-! ## Every command -/

/-- No command touches the queue of commands that wait. -/
theorem exec_pending {c : Instr} {s t : State} (e : exec c s = .next t) : t.pending = s.pending := by
  cases c
  case nop dt p => exact exec_hostRow_pending .nop dt p e
  case post dt p => exact exec_hostRow_pending .post dt p e
  case take dt p => exact exec_hostRow_pending .take dt p e
  case reap dt p => exact exec_hostRow_pending .reap dt p e
  case status dt p => exact exec_hostRow_pending .status dt p e
  case peer dt p => exact exec_hostRow_pending .peer dt p e
  case cancel dt p => exact exec_hostRow_pending .cancel dt p e
  case flush dt p => exact exec_hostRow_pending .flush dt p e
  case leave dt p => exact exec_hostRow_pending .leave dt p e
  case rejoin dt p => exact exec_hostRow_pending .rejoin dt p e
  case restart dt p => exact exec_hostRow_pending .restart dt p e
  case unknownCommand dt p => exact exec_hostRow_pending .unknown dt p e
  all_goals injection e with e; subst e
  case pinReset dt => rfl
  case rstnRelease dt a b r l => exact State.ite_pending (s := s.advance dt) fun _ => rfl
  case characterDelivered => exact State.ite_pending fun _ => State.takeCharacter_pending (s.runTo _) _
  case startGlitch => exact State.ite_pending fun _ => State.glitch_pending (s.runTo _) _
  case discardSettle => exact State.ite_pending fun _ => rfl
  case frameTruncation => exact State.ite_pending fun _ => State.truncate_pending (s.runTo _)
  case characterSent =>
    exact State.ite_pending fun _ => (State.charSent_pending (s.toNextStart.runTo _)).trans s.toNextStart_pending
  case loss =>
    exact State.ite_pending fun _ => (State.mismatch_pending (s.toNextStart.runTo _) _ _).trans s.toNextStart_pending
  case lineFault =>
    exact State.ite_pending fun _ => (State.mismatch_pending (s.toNextStart.runTo _) _ _).trans s.toNextStart_pending
  case finishingEnd m =>
    refine State.ite_pending fun _ => ?_
    split <;> rfl
  case slotStart => exact State.ite_pending fun _ => State.slotStart_pending (s.runTo _) _
  case secondRestSlotEnd => exact State.ite_pending fun _ => State.restTest_pending (s.runTo _)
  case restDueRest => exact State.ite_pending fun _ => rfl
  case quietMeasurementRest => exact State.ite_pending fun _ => rfl
  case rotationWindowEnd =>
    split
    · refine State.ite_pending fun _ => ?_
      dsimp only
      split <;> rfl
    · rfl
  case answerWindowStart =>
    split
    · exact State.ite_pending fun _ => State.answerWindow_pending (s.runTo _) _
    · rfl
  case watchWindowEnd =>
    split
    · dsimp only
      split
      · rfl
      · exact State.closeWatch_pending (s.runTo _) _ _
    · rfl
    · rfl
    · rfl
  case transactionOpen dt => exact State.ite_pending (s := s.advance dt) fun _ => rfl
  case commandDecode dt p =>
    refine State.ite_pending (s := s.advance dt) fun _ => ?_
    obtain ⟨v, hv⟩ := (s.advance dt).firstByte_port p
    rw [hv, State.setPort_pending]
  case postPayloadByte dt b =>
    refine State.ite_pending (s := s.advance dt) fun _ => ?_
    obtain ⟨v, hv⟩ := (s.advance dt).sckByte_port b fun b u => u.exchange_port .post b
    rw [hv, State.setPort_pending]
  case voidTransaction dt => exact State.ite_pending (s := s.advance dt) fun _ => rfl
  case barredCsnRise dt => exact State.ite_pending (s := s.advance dt) fun _ => rfl
  case startEdge dt => exact (s.advance dt).startEdge_pending
  case firstRecessiveSample dt => exact State.ite_pending (s := s.advance dt) fun _ => rfl
  case dominantSample dt => exact State.ite_pending (s := s.advance dt) fun _ => rfl

/-! ## The step -/

@[simp] theorem step_cons (c : Instr) (rest : List Instr) (s : State) :
    step { s with pending := c :: rest } = exec c { s with pending := rest } := rfl

@[simp] theorem step_nil (s : State) : step { s with pending := [] } = .next { s with pending := [] } := rfl

/-- Settles O1: the step by the form of the queue, and the queue left alone by `exec_pending`, command by command. -/
theorem stepRunsTheFrontCommand : Obligations.StepRunsTheFrontCommand :=
  ⟨fun c rest s => ⟨step_cons c rest s, step_nil s⟩, fun _ _ _ e => exec_pending e⟩

end Sys2Proof.Machine
end

section
/-! The laws of the device in the state at reset, where the queues are empty, the blocks FREE, and each block of the
device at its reset values. -/

namespace Sys2Proof.Machine

open Sys2Proof

/-- No entry, no record and no completion waits (R128, R153). -/
theorem State.reset_queueLimits : State.reset.queueLimits := ⟨Nat.zero_le 16, Nat.zero_le 24⟩

/-- Every count starts from 0 (R65, R17, R153). -/
theorem State.reset_countersLaw : State.reset.countersLaw :=
  ⟨Nat.zero_le _, Nat.zero_le _, Nat.zero_le _, Nat.zero_le _, Nat.zero_le _, nofun⟩

/-- All 64 blocks are FREE, and neither queue names one (R139). -/
theorem State.reset_poolLaw : State.reset.poolLaw :=
  (State.poolLaw_iff _).2
    ⟨List.length_replicate, HoldersLaw.reset (p := State.reset.pool) nofun,
      HoldersLaw.reset (p := State.reset.pool) nofun⟩

/-- The transmit queue is empty and the watch SHUT (R84, R128). -/
theorem State.reset_headLaw : State.reset.headLaw :=
  (State.headLaw_iff _).2 ⟨⟨List.nodup_nil, nofun, nofun⟩, nofun⟩

/-- No cell of the pool is listed (assumption log 5). -/
theorem State.reset_cellsLaw : State.reset.cellsLaw := ⟨List.Pairwise.nil, nofun⟩

/-- Settles O4: the quiet timer, the rotation controller and the peer table by the lemmas of their reset values, the
other laws by the empty queues and the FREE blocks. -/
theorem lawsHoldAtReset : Obligations.LawsHoldAtReset :=
  ⟨State.quietLaw_start rfl, (State.rotationLaw_iff _).2 (Rotation.init_lawful 0 0), State.reset_queueLimits,
    State.reset_countersLaw, State.reset_poolLaw, State.reset_headLaw, State.peerLaw.reset rfl rfl,
    State.reset_cellsLaw⟩

end Sys2Proof.Machine
end
